-- ==== Sys2Proof/Word.lean ====
section
/-! DEFINITION. The word types of LDT-OWE: request and response words, command bytes, durations, frame words
and the level of the line. -/

namespace Sys2Proof

/-- A request word, a response data word, or a time stamp held in 32 bits (30_encoding.md R52, R53). -/
abbrev Word := BitVec 32

/-- A command byte (42_commands.md, "a command is the CMD operand"). -/
abbrev Byte := BitVec 8

/-- A duration as a timer stores it: 23 bits unsigned, in milliseconds (10_state.md R21). -/
abbrev Duration := BitVec 23

/-- The frame word register's width (10_state.md R30). -/
abbrev FrameWord := BitVec 16

/-- A level of the one-wire line: `true` is level 1, `false` is level 0 (00_scope.md R11). -/
abbrev Level := Bool

end Sys2Proof
end

