-- ==== Sys2Proof/Syntax.lean ====
section
/-! DEFINITION. The requests of LDT-OWE: one constructor of `Instr` per row of spec/opcode_table.json, the
seventeen commands of the command table, and the eleven register views. -/

namespace Sys2Proof

/-- The commands of the command table, in the table's order (42_commands.md R99 to R115). -/
inductive Command
  | on | onVib | onVibShock | calib | calibFinished | measure | measureFinOk | measureFinShock | measureFinVib
  | beep | e1 | e2 | e3 | e4 | e5 | e6 | e7
  deriving DecidableEq, Repr

/-- The register views RDSTATE reads, in the order of their SEL numbers 0 to 10 (10_state.md R35). -/
inductive View
  | status | now | thStart | thDur | thFlags | teStart | teDur | teFlags | seq | frame | config
  deriving DecidableEq, Repr

/-- A request. The seven requests of 30_encoding.md R54, and one constructor for each command byte of a SEND
(42_commands.md): a SEND word whose CMD is in the command table is read as its command's constructor, any other SEND
word as `send` (log entry 7). -/
inductive Instr
  /-- NOP (43_control.md R116). -/
  | nop
  /-- BEGIN (41_encoder.md R82). -/
  | beginLine
  /-- SEND with a command byte given as a byte (41_encoder.md R83). -/
  | send (cmd : Byte) (l8 l9 : Bool) (stripe : BitVec 6)
  /-- TSET with its 24-bit two's-complement duration (40_timer.md R78). -/
  | tset (d : BitVec 24)
  /-- TFIN (40_timer.md R79). -/
  | tfin
  /-- TALIVE (40_timer.md R80). -/
  | talive
  /-- RDSTATE of a view (43_control.md R117). -/
  | rdstate (v : View)
  /-- SEND.ON, command byte 0xa0 (42_commands.md R99). -/
  | sendOn (l8 l9 : Bool) (stripe : BitVec 6)
  /-- SEND.ON_VIB, command byte 0x30 (42_commands.md R100). -/
  | sendOnVib (l8 l9 : Bool) (stripe : BitVec 6)
  /-- SEND.ON_VIB_SHOCK, command byte 0x20 (42_commands.md R101). -/
  | sendOnVibShock (l8 l9 : Bool) (stripe : BitVec 6)
  /-- SEND.CALIB, command byte 0x80 (42_commands.md R102). -/
  | sendCalib (l8 l9 : Bool) (stripe : BitVec 6)
  /-- SEND.CALIB_FINISHED, command byte 0x90 (42_commands.md R103). -/
  | sendCalibFinished (l8 l9 : Bool) (stripe : BitVec 6)
  /-- SEND.MEASURE, command byte 0x10 (42_commands.md R104). -/
  | sendMeasure (l8 l9 : Bool) (stripe : BitVec 6)
  /-- SEND.MEASURE_FIN_OK, command byte 0x00 (42_commands.md R105). -/
  | sendMeasureFinOk (l8 l9 : Bool) (stripe : BitVec 6)
  /-- SEND.MEASURE_FIN_SHOCK, command byte 0x60 (42_commands.md R106). -/
  | sendMeasureFinShock (l8 l9 : Bool) (stripe : BitVec 6)
  /-- SEND.MEASURE_FIN_VIB, command byte 0x70 (42_commands.md R107). -/
  | sendMeasureFinVib (l8 l9 : Bool) (stripe : BitVec 6)
  /-- SEND.BEEP, command byte 0x40 (42_commands.md R108). -/
  | sendBeep (l8 l9 : Bool) (stripe : BitVec 6)
  /-- SEND.E1, command byte 0x50 (42_commands.md R109). -/
  | sendE1 (l8 l9 : Bool) (stripe : BitVec 6)
  /-- SEND.E2, command byte 0xb0 (42_commands.md R110). -/
  | sendE2 (l8 l9 : Bool) (stripe : BitVec 6)
  /-- SEND.E3, command byte 0xc0 (42_commands.md R111). -/
  | sendE3 (l8 l9 : Bool) (stripe : BitVec 6)
  /-- SEND.E4, command byte 0xd0 (42_commands.md R112). -/
  | sendE4 (l8 l9 : Bool) (stripe : BitVec 6)
  /-- SEND.E5, command byte 0xe0 (42_commands.md R113). -/
  | sendE5 (l8 l9 : Bool) (stripe : BitVec 6)
  /-- SEND.E6, command byte 0xf0 (42_commands.md R114). -/
  | sendE6 (l8 l9 : Bool) (stripe : BitVec 6)
  /-- SEND.E7, command byte 0xa8 (42_commands.md R115). -/
  | sendE7 (l8 l9 : Bool) (stripe : BitVec 6)
  deriving DecidableEq, Repr

end Sys2Proof
end

