-- ==== Sys2Proof/Machine/CommandTable.lean ====
section
/-! DEFINITION. The command lookup table: the 17 commands and their 8-bit patterns (20_memory.md R38;
30_encoding.md R62; 42_commands.md R99 to R115). -/

namespace Sys2Proof.Machine

/-- The 8-bit pattern of a command (42_commands.md R99 to R115). -/
def commandByte : Command → Byte
  | .on => 0xa0
  | .onVib => 0x30
  | .onVibShock => 0x20
  | .calib => 0x80
  | .calibFinished => 0x90
  | .measure => 0x10
  | .measureFinOk => 0x00
  | .measureFinShock => 0x60
  | .measureFinVib => 0x70
  | .beep => 0x40
  | .e1 => 0x50
  | .e2 => 0xb0
  | .e3 => 0xc0
  | .e4 => 0xd0
  | .e5 => 0xe0
  | .e6 => 0xf0
  | .e7 => 0xa8

/-- The command table's entries, in its order (20_memory.md R38). -/
def commandTable : List Command :=
  [.on, .onVib, .onVibShock, .calib, .calibFinished, .measure, .measureFinOk, .measureFinShock, .measureFinVib,
   .beep, .e1, .e2, .e3, .e4, .e5, .e6, .e7]

/-- The command whose pattern a byte is, if any (30_encoding.md R62). -/
def commandOf (b : Byte) : Option Command :=
  commandTable.find? fun k => commandByte k == b

/-- Whether a CMD operand is valid: it equals the pattern of some entry of the table (20_memory.md R38;
30_encoding.md R62). -/
def validCommand (b : Byte) : Bool :=
  (commandOf b).isSome

end Sys2Proof.Machine
end

