-- ==== Sys2Proof/WellFormed.lean ====
section
/-! DEFINITION. Which instructions are well formed: those the decoder can read from a word. Widths are kept by the
operand types and illegal SEL numbers by `View`; what is left is that a SEND word whose CMD is in the command table is
read as its command's own constructor (log entry 7). -/

namespace Sys2Proof

/-- An instruction some request word is read as. The general `send` stands for the command bytes outside the table. -/
def Instr.wellFormed : Instr → Bool
  | .send cmd _ _ _ => !Machine.validCommand cmd
  | .nop => true
  | .beginLine => true
  | .tset _ => true
  | .tfin => true
  | .talive => true
  | .rdstate _ => true
  | .sendOn _ _ _ => true
  | .sendOnVib _ _ _ => true
  | .sendOnVibShock _ _ _ => true
  | .sendCalib _ _ _ => true
  | .sendCalibFinished _ _ _ => true
  | .sendMeasure _ _ _ => true
  | .sendMeasureFinOk _ _ _ => true
  | .sendMeasureFinShock _ _ _ => true
  | .sendMeasureFinVib _ _ _ => true
  | .sendBeep _ _ _ => true
  | .sendE1 _ _ _ => true
  | .sendE2 _ _ _ => true
  | .sendE3 _ _ _ => true
  | .sendE4 _ _ _ => true
  | .sendE5 _ _ _ => true
  | .sendE6 _ _ _ => true
  | .sendE7 _ _ _ => true

end Sys2Proof
end

