-- ==== Sys2Proof/Decode.lean ====
section
/-! DEFINITION. The request decoder (30_encoding.md R52 to R61), total over all 32-bit words and rejecting by name,
the encoder written from the same formats (R55 to R58, R69), an assembler's operand ranges (R69), and the reading of
a row of spec/opcode_table.json as a request word. -/

namespace Sys2Proof

/-- Why a word spells no request (30_encoding.md R60). Every one of them is answered with E_ILLEGAL_OP. -/
inductive DecodeError
  /-- The opcode is 0x7 to 0xF (R60 a). -/
  | reservedOpcode
  /-- A reserved bit of the format is 1 (R60 b to e). -/
  | reservedBits
  /-- An RDSTATE with SEL 11 to 15 (R60 f). -/
  | unknownView
  deriving DecidableEq, Repr

/-- The view a SEL number names; 11 to 15 name none (10_state.md R35). -/
def viewOf (sel : BitVec 4) : Option View :=
  match sel.toNat with
  | 0 => some .status
  | 1 => some .now
  | 2 => some .thStart
  | 3 => some .thDur
  | 4 => some .thFlags
  | 5 => some .teStart
  | 6 => some .teDur
  | 7 => some .teFlags
  | 8 => some .seq
  | 9 => some .frame
  | 10 => some .config
  | _ => none

/-- The SEL number of a view (10_state.md R35). -/
def selOf : View → BitVec 4
  | .status => 0
  | .now => 1
  | .thStart => 2
  | .thDur => 3
  | .thFlags => 4
  | .teStart => 5
  | .teDur => 6
  | .teFlags => 7
  | .seq => 8
  | .frame => 9
  | .config => 10

/-- The request that carries a command of the table (42_commands.md R99 to R115). -/
def sendOf (k : Command) (l8 l9 : Bool) (stripe : BitVec 6) : Instr :=
  match k with
  | .on => .sendOn l8 l9 stripe
  | .onVib => .sendOnVib l8 l9 stripe
  | .onVibShock => .sendOnVibShock l8 l9 stripe
  | .calib => .sendCalib l8 l9 stripe
  | .calibFinished => .sendCalibFinished l8 l9 stripe
  | .measure => .sendMeasure l8 l9 stripe
  | .measureFinOk => .sendMeasureFinOk l8 l9 stripe
  | .measureFinShock => .sendMeasureFinShock l8 l9 stripe
  | .measureFinVib => .sendMeasureFinVib l8 l9 stripe
  | .beep => .sendBeep l8 l9 stripe
  | .e1 => .sendE1 l8 l9 stripe
  | .e2 => .sendE2 l8 l9 stripe
  | .e3 => .sendE3 l8 l9 stripe
  | .e4 => .sendE4 l8 l9 stripe
  | .e5 => .sendE5 l8 l9 stripe
  | .e6 => .sendE6 l8 l9 stripe
  | .e7 => .sendE7 l8 l9 stripe

/-- The instruction of a SEND word with these operands: the command's own constructor where CMD is in the command
table, `send` where it is not (log entry 7). -/
def readSend (cmd : Byte) (l8 l9 : Bool) (stripe : BitVec 6) : Instr :=
  match Machine.commandOf cmd with
  | some k => sendOf k l8 l9 stripe
  | none => .send cmd l8 l9 stripe

/-- A format N word: the request, if the 28 operand bits are 0 (30_encoding.md R55). -/
def readFormatN (q : Word) (i : Instr) : Except DecodeError Instr :=
  if q.extractLsb' 0 28 = 0 then .ok i else .error .reservedBits

/-- A format S word (30_encoding.md R56, R59). -/
def readFormatS (q : Word) : Except DecodeError Instr :=
  if q.extractLsb' 16 12 = 0 then
    .ok (readSend (q.extractLsb' 0 8) (q.getLsbD 8) (q.getLsbD 9) (q.extractLsb' 10 6))
  else .error .reservedBits

/-- A format D word (30_encoding.md R57, R59). -/
def readFormatD (q : Word) : Except DecodeError Instr :=
  if q.extractLsb' 24 4 = 0 then .ok (.tset (q.extractLsb' 0 24)) else .error .reservedBits

/-- A format R word (30_encoding.md R58, R59). -/
def readFormatR (q : Word) : Except DecodeError Instr :=
  if q.extractLsb' 4 24 = 0 then
    match viewOf (q.extractLsb' 0 4) with
    | some v => .ok (.rdstate v)
    | none => .error .unknownView
  else .error .reservedBits

/-- The decoder (30_encoding.md R61): total over all words, each illegal word rejected by name. -/
def decode (q : Word) : Except DecodeError Instr :=
  match (q.extractLsb' 28 4).toNat with
  | 0 => readFormatN q .nop
  | 1 => readFormatN q .beginLine
  | 2 => readFormatS q
  | 3 => readFormatD q
  | 4 => readFormatN q .tfin
  | 5 => readFormatN q .talive
  | 6 => readFormatR q
  | _ => .error .reservedOpcode

/-- The request word with opcode `op` in bits 31:28 and the number `operands` below them (30_encoding.md R52). -/
def requestWord (op operands : Nat) : Word := BitVec.ofNat 32 (op * 2 ^ 28 + operands)

/-- A word of format N (30_encoding.md R55). -/
def formatN (op : Nat) : Word := requestWord op 0

/-- A word of format S (30_encoding.md R56): STRIPE from bit 10, L9 at bit 9, L8 at bit 8, CMD from bit 0. -/
def formatS (cmd : Byte) (l8 l9 : Bool) (stripe : BitVec 6) : Word :=
  requestWord 0x2 (stripe.toNat * 2 ^ 10 + l9.toNat * 2 ^ 9 + l8.toNat * 2 ^ 8 + cmd.toNat)

/-- A word of format D (30_encoding.md R57). -/
def formatD (d : BitVec 24) : Word := requestWord 0x3 d.toNat

/-- A word of format R (30_encoding.md R58). -/
def formatR (sel : BitVec 4) : Word := requestWord 0x6 sel.toNat

/-- The encoder: the word of a request (30_encoding.md R55 to R58, R69; 42_commands.md R99 to R115). -/
def encode : Instr → Word
  | .nop => formatN 0x0
  | .beginLine => formatN 0x1
  | .send cmd l8 l9 stripe => formatS cmd l8 l9 stripe
  | .tset d => formatD d
  | .tfin => formatN 0x4
  | .talive => formatN 0x5
  | .rdstate v => formatR (selOf v)
  | .sendOn l8 l9 stripe => formatS (Machine.commandByte .on) l8 l9 stripe
  | .sendOnVib l8 l9 stripe => formatS (Machine.commandByte .onVib) l8 l9 stripe
  | .sendOnVibShock l8 l9 stripe => formatS (Machine.commandByte .onVibShock) l8 l9 stripe
  | .sendCalib l8 l9 stripe => formatS (Machine.commandByte .calib) l8 l9 stripe
  | .sendCalibFinished l8 l9 stripe => formatS (Machine.commandByte .calibFinished) l8 l9 stripe
  | .sendMeasure l8 l9 stripe => formatS (Machine.commandByte .measure) l8 l9 stripe
  | .sendMeasureFinOk l8 l9 stripe => formatS (Machine.commandByte .measureFinOk) l8 l9 stripe
  | .sendMeasureFinShock l8 l9 stripe => formatS (Machine.commandByte .measureFinShock) l8 l9 stripe
  | .sendMeasureFinVib l8 l9 stripe => formatS (Machine.commandByte .measureFinVib) l8 l9 stripe
  | .sendBeep l8 l9 stripe => formatS (Machine.commandByte .beep) l8 l9 stripe
  | .sendE1 l8 l9 stripe => formatS (Machine.commandByte .e1) l8 l9 stripe
  | .sendE2 l8 l9 stripe => formatS (Machine.commandByte .e2) l8 l9 stripe
  | .sendE3 l8 l9 stripe => formatS (Machine.commandByte .e3) l8 l9 stripe
  | .sendE4 l8 l9 stripe => formatS (Machine.commandByte .e4) l8 l9 stripe
  | .sendE5 l8 l9 stripe => formatS (Machine.commandByte .e5) l8 l9 stripe
  | .sendE6 l8 l9 stripe => formatS (Machine.commandByte .e6) l8 l9 stripe
  | .sendE7 l8 l9 stripe => formatS (Machine.commandByte .e7) l8 l9 stripe

/-- A line of the spec's assembler with its operands as the numbers written (30_encoding.md R69). The command operand
is a table name (`Sum.inl`) or a byte literal (`Sum.inr`), the view a name or a number. -/
inductive AsmLine
  | nop
  | beginLine
  | send (cmd : Command ⊕ Nat) (l8 l9 : Nat) (stripe : Nat)
  | tset (d : Int)
  | tfin
  | talive
  | rdstate (sel : View ⊕ Nat)
  deriving DecidableEq, Repr

/-- The byte a command operand stands for; a literal must be a byte (30_encoding.md R69). -/
def asmByte : Command ⊕ Nat → Option Byte
  | .inl k => some (Machine.commandByte k)
  | .inr n => if n < 256 then some (BitVec.ofNat 8 n) else none

/-- The SEL number a view operand stands for; a number must be 0 to 10 (30_encoding.md R69). -/
def asmSel : View ⊕ Nat → Option (BitVec 4)
  | .inl v => some (selOf v)
  | .inr n => if n ≤ 10 then some (BitVec.ofNat 4 n) else none

/-- The assembler (30_encoding.md R69): the word of a line, or none where an operand is outside its range. It does not
refuse a stripe above STRIPE_WIDTH bits or a byte outside the table; the block does. Log entry 15. -/
def assemble : AsmLine → Option Word
  | .nop => some (formatN 0x0)
  | .beginLine => some (formatN 0x1)
  | .send cmd l8 l9 stripe =>
    match asmByte cmd with
    | some b =>
      if l8 ≤ 1 ∧ l9 ≤ 1 ∧ stripe ≤ 63 then some (formatS b (l8 == 1) (l9 == 1) (BitVec.ofNat 6 stripe)) else none
    | none => none
  | .tset d => if -8388608 ≤ d ∧ d ≤ 8388607 then some (formatD (BitVec.ofInt 24 d)) else none
  | .tfin => some (formatN 0x4)
  | .talive => some (formatN 0x5)
  | .rdstate sel => (asmSel sel).map formatR

/-- The request word of a row's bits as spec/opcode_table.json numbers them. A row of 8 bits (format CMD8) is the CMD
operand of a SEND word, bits 7:0, with every other operand 0 (log entry 8); any other row is the low bits of the word,
the bits above `nbits` 0. -/
def tableWord (nbits w : Nat) : Word :=
  if nbits = 8 then formatS (BitVec.ofNat 8 w) false false 0 else BitVec.ofNat 32 (w % 2 ^ nbits)

/-- The instruction the decoder reads from a row's bits; none where it refuses. -/
def decodeTableWord (nbits w : Nat) : Option Instr :=
  match decode (tableWord nbits w) with
  | .ok i => some i
  | .error _ => none

end Sys2Proof
end

