-- ==== Sys2Proof/Config.lean ====
section
/-! DEFINITION. The configuration record of 00_scope.md R13: the parameters the spec leaves OPEN, which
configurations are legal (R7, R9, R10, R12), the spec's reference configuration REF, and the one free value
(the level of an undriven wire). -/

namespace Sys2Proof

/-- The configuration of the block (00_scope.md R13). It is fixed for the life of the block: no event changes it. -/
structure Config where
  /-- STRIPE_WIDTH (R7). -/
  stripeWidth : Nat
  /-- T_START_ACTIVE, in ticks (R9). -/
  tStartActive : Duration
  /-- T_START_GAP, in ticks (R9). -/
  tStartGap : Duration
  /-- T_TINY, the active time of a 0 symbol (R9). -/
  tTiny : Duration
  /-- T_LONG, the active time of a 1 symbol (R9). -/
  tLong : Duration
  /-- T_GAP, the idle time after every data symbol (R9). -/
  tGap : Duration
  /-- IDLE_LEVEL (R11). -/
  idleLevel : Level
  /-- CLOCK_BITS (R12). -/
  clockBits : Nat
  deriving DecidableEq, Repr

/-- The legal configurations: the ranges of R7 and R12, every duration at least 1 (R9, R10 c; at most `2^23 - 1`
by its type), `T_TINY < T_LONG` (R10 a), and a start marker that differs from every data symbol (R10 b). -/
def Config.legal (c : Config) : Bool :=
  decide (1 ≤ c.stripeWidth ∧ c.stripeWidth ≤ 6) &&
  decide (24 ≤ c.clockBits ∧ c.clockBits ≤ 32) &&
  decide (1 ≤ c.tStartActive.toNat ∧ 1 ≤ c.tStartGap.toNat ∧ 1 ≤ c.tTiny.toNat ∧
    1 ≤ c.tLong.toNat ∧ 1 ≤ c.tGap.toNat) &&
  decide (c.tTiny.toNat < c.tLong.toNat) &&
  decide ((c.tStartActive ≠ c.tTiny ∧ c.tStartActive ≠ c.tLong) ∨ c.tStartGap ≠ c.tGap)

/-- The spec's reference configuration REF (00_scope.md R7, R9, R11, R12; 92_eei_decisions.md D30). -/
def Config.ref : Config where
  stripeWidth := 2
  tStartActive := 8
  tStartGap := 4
  tTiny := 1
  tLong := 3
  tGap := 1
  idleLevel := false
  clockBits := 32

/-- FREE VALUE: the level on the wire at a moment at which the block does not drive it (10_state.md R26, R36;
93_implementation_defined.md S1: any value in 0 and 1, possibly changing at any time). Log entry 10. -/
opaque Config.undrivenLevel : Nat → Level

end Sys2Proof
end

