-- ==== Sys2Proof/Machine/State.lean ====
section
/-! DEFINITION. The state of LDT-OWE as plain data: the block's state elements (10_state.md R19), its ports
(20_memory.md R39), and the model's own fields (configuration, events to come, the host's record of errors). -/

namespace Sys2Proof.Machine

/-- A timer of the one Timer primitive (10_state.md R21, R23). -/
structure Timer where
  /-- START, a time of CLOCK_BITS bits (log entry 11). -/
  start : Word
  /-- DUR, in ticks. -/
  dur : Duration
  /-- ALIVE. -/
  alive : Bool
  deriving DecidableEq, Repr

/-- The sequencer's phases (10_state.md R28). The codes 6 and 7, which are never held, have no constructor
(log entry 12). -/
inductive Phase
  | idle | startActive | startGap | bitActive | bitGap | done
  deriving DecidableEq, Repr

/-- The status of a response (30_encoding.md R53). -/
inductive Status
  | ok | illegalOp | invalidArgument | invalidCommand | stripeRange | notInitialised | busy
  deriving DecidableEq, Repr

/-- The block's state elements: exactly the table of 10_state.md R19. -/
structure Block where
  /-- NOW, the time base's counter of CLOCK_BITS bits (R20; log entry 11). -/
  now : Word
  /-- TH, the host timer (R21). -/
  th : Timer
  /-- TE, the encoder timer (R23). -/
  te : Timer
  /-- INIT (R25). -/
  init : Bool
  /-- LINE_OE (R26). -/
  lineOe : Bool
  /-- LINE (R27). -/
  line : Level
  /-- PHASE (R28). -/
  phase : Phase
  /-- IDX (R29). -/
  idx : BitVec 4
  /-- FRAME (R30). -/
  frame : FrameWord
  deriving DecidableEq, Repr

/-- What the outside world does to the block (00_scope.md R6): the host issues a request word, the time base delivers
a tick, the reset input takes a level. -/
inductive Event
  | request (q : Word)
  | tick
  | rst (level : Bool)
  deriving DecidableEq, Repr

/-- The machine's state: the block, its ports, and the model's own fields. -/
structure State where
  /-- The configuration: a constant of the block, not its state (00_scope.md R13; log entry 2). -/
  cfg : Config
  /-- The block's state elements (10_state.md R19). -/
  blk : Block
  /-- The level of the input port rst (20_memory.md R39). -/
  rst : Bool
  /-- The output port rsp_status: the status of the request just processed (20_memory.md R39; log entry 4). -/
  rspStatus : Status
  /-- The output port rsp_data: the data word of the request just processed (20_memory.md R39; log entry 4). -/
  rspData : Word
  /-- MODEL's own: the events still to come, in their total order (20_memory.md R46; log entry 1). -/
  inputs : List Event
  /-- MODEL's own: the host's record of every status other than OK, the newest first (60_exceptions.md R120;
  log entry 5). The block never reads it. -/
  hostErrors : List Status
  deriving DecidableEq, Repr

/-- Why the machine stops. -/
inductive Fault
  /-- The configuration is not legal (00_scope.md R10). Raised by `step` alone; 93_implementation_defined.md S3 treats
  it as a fault at model construction. Safe: the hardware's behaviour there is not specified (log entry 3). -/
  | illegalConfiguration
  deriving DecidableEq, Repr

/-- Why an instruction has no meaning. -/
inductive Refusal
  /-- An instruction without a meaning yet. Raised by no arm of `exec`: every row has its meaning. Safe. -/
  | notModelled (mnemonic : String)
  deriving DecidableEq, Repr

/-- The reset value of a timer: created inert (10_state.md R36). -/
def Timer.inert : Timer where
  start := 0
  dur := 0
  alive := false

/-- The reset value of every state element (10_state.md R19, R36). -/
def Block.reset (c : Config) : Block where
  now := 0
  th := .inert
  te := .inert
  init := false
  lineOe := false
  line := c.idleLevel
  phase := .idle
  idx := 0
  frame := 0

/-- The machine of configuration `c` right after reset, rst released, nothing presented on its ports
(70_reset_and_hazards.md R136). The ports' and the model's own fields: log entries 1, 4, 5. -/
def State.resetWith (c : Config) : State where
  cfg := c
  blk := .reset c
  rst := false
  rspStatus := .ok
  rspData := 0
  inputs := []
  hostErrors := []

/-- The machine right after reset, in the spec's reference configuration REF (log entry 2). -/
def State.reset : State := State.resetWith Config.ref

end Sys2Proof.Machine
end

