-- ==== Sys2Proof/Machine/Flags.lean ====
section
/-! DEFINITION. Everything the block computes from its state when it is read: the status flags
(10_state.md R31), the timers' elapsed, finished and alive (40_timer.md R73, R74), the status codes
(30_encoding.md R53), the register views (10_state.md R35; 43_control.md R117) and the line port
(20_memory.md R40). -/

namespace Sys2Proof.Machine

/-- ACTIVE_LEVEL = 1 - IDLE_LEVEL (00_scope.md R11). -/
def activeLevel (c : Config) : Level := !c.idleLevel

/-- FRAME_LEN = 8 + 2 + STRIPE_WIDTH (00_scope.md R8). -/
def frameLen (c : Config) : Nat := 8 + 2 + c.stripeWidth

/-- A count of ticks reduced to the width of the time base (10_state.md R20). -/
def clockWrap (c : Config) (n : Nat) : Word := BitVec.ofNat 32 (n % 2 ^ c.clockBits)

/-- `elapsed(T) = (NOW - T.START) mod 2^CLOCK_BITS` (40_timer.md R73). -/
def Timer.elapsed (c : Config) (now : Word) (t : Timer) : Nat :=
  (now - t.start).toNat % 2 ^ c.clockBits

/-- `finished(T)`: alive, and the elapsed time is at least the duration (40_timer.md R73). -/
def Timer.finished (c : Config) (now : Word) (t : Timer) : Bool :=
  t.alive && decide (t.dur.toNat ≤ t.elapsed c now)

/-- BUSY: a frame is in flight (10_state.md R31). -/
def Phase.busy : Phase → Bool
  | .startActive => true
  | .startGap => true
  | .bitActive => true
  | .bitGap => true
  | .idle => false
  | .done => false

/-- The 3-bit code of a phase (10_state.md R28). -/
def Phase.code : Phase → BitVec 3
  | .idle => 0
  | .startActive => 1
  | .startGap => 2
  | .bitActive => 3
  | .bitGap => 4
  | .done => 5

/-- The 4-bit code of a status (30_encoding.md R53). -/
def Status.code : Status → BitVec 4
  | .ok => 0
  | .illegalOp => 1
  | .invalidArgument => 2
  | .invalidCommand => 3
  | .stripeRange => 4
  | .notInitialised => 5
  | .busy => 6

/-- The flag BUSY of the block (10_state.md R31). -/
def Block.busy (b : Block) : Bool := b.phase.busy

/-- The flag DONE of the block: a frame has ended since the last SEND (10_state.md R31). -/
def Block.isDone (b : Block) : Bool := b.phase == .done

/-- `finished(TH)`. -/
def Block.thFinished (c : Config) (b : Block) : Bool := b.th.finished c b.now

/-- `finished(TE)`. -/
def Block.teFinished (c : Config) (b : Block) : Bool := b.te.finished c b.now

/-- View 0, STATUS (10_state.md R35). -/
def viewStatus (b : Block) : Word :=
  0#27 ++ BitVec.ofBool b.lineOe ++ BitVec.ofBool b.line ++ BitVec.ofBool b.isDone ++ BitVec.ofBool b.busy ++
    BitVec.ofBool b.init

/-- Views 4 and 7: `{finished(T), T.ALIVE}` (10_state.md R35). -/
def viewTimerFlags (c : Config) (now : Word) (t : Timer) : Word :=
  0#30 ++ BitVec.ofBool (t.finished c now) ++ BitVec.ofBool t.alive

/-- View 8, SEQ: PHASE in 2:0, IDX in 11:8 (10_state.md R35). -/
def viewSeq (b : Block) : Word := 0#20 ++ b.idx ++ 0#5 ++ b.phase.code

/-- View 10, CONFIG (10_state.md R35). -/
def viewConfig (c : Config) : Word :=
  0#10 ++ BitVec.ofNat 6 c.clockBits ++ 0#3 ++ BitVec.ofNat 5 (frameLen c) ++ 0#3 ++ BitVec.ofBool c.idleLevel ++
    BitVec.ofNat 4 c.stripeWidth

/-- The value of a register view, computed from the current state (43_control.md R117). -/
def view (c : Config) (b : Block) : View → Word
  | .status => viewStatus b
  | .now => b.now
  | .thStart => b.th.start
  | .thDur => b.th.dur.setWidth 32
  | .thFlags => viewTimerFlags c b.now b.th
  | .teStart => b.te.start
  | .teDur => b.te.dur.setWidth 32
  | .teFlags => viewTimerFlags c b.now b.te
  | .seq => viewSeq b
  | .frame => b.frame.setWidth 32
  | .config => viewConfig c

/-- The output port rsp_status (20_memory.md R39). -/
def State.rspStatusPort (s : State) : BitVec 4 := s.rspStatus.code

/-- The output port line_oe (20_memory.md R40). -/
def State.lineOePort (s : State) : Bool := s.blk.lineOe

/-- The level on the wire at a moment: LINE while the block drives it (20_memory.md R40), a free value while it does
not (93_implementation_defined.md S1; log entry 10). -/
def State.wireAt (s : State) (moment : Nat) : Level :=
  if s.blk.lineOe then s.blk.line else Config.undrivenLevel moment

end Sys2Proof.Machine
end

