-- ==== Sys2Proof/Machine/Operands.lean ====
section
/-! DEFINITION. What the requests make of their operands: the signed duration of TSET (30_encoding.md R59), the
range of `led_stripe` (41_encoder.md R83), the frame word (30_encoding.md R66; 41_encoder.md R84) and the duration of
each symbol (41_encoder.md R85). -/

namespace Sys2Proof.Machine

/-- Whether TSET's 24-bit two's-complement operand is negative (30_encoding.md R59; 40_timer.md R78). -/
def durationNegative (d : BitVec 24) : Bool := decide (d.toInt < 0)

/-- The duration a nonnegative operand stands for, as a timer stores it (30_encoding.md R59). -/
def durationOf (d : BitVec 24) : Duration := d.setWidth 23

/-- Whether `led_stripe` fits STRIPE_WIDTH bits (41_encoder.md R83). -/
def stripeFits (c : Config) (stripe : BitVec 6) : Bool := decide (stripe.toNat < 2 ^ c.stripeWidth)

/-- A flag as a number. -/
def flagWord (b : Bool) : FrameWord := (BitVec.ofBool b).setWidth 16

/-- The frame word `W = {CMD, L8, L9, STRIPE}` zero-extended to the FRAME register
(30_encoding.md R66; 41_encoder.md R84). -/
def frameWord (c : Config) (cmd : Byte) (l8 l9 : Bool) (stripe : BitVec 6) : FrameWord :=
  (cmd.setWidth 16 <<< (2 + c.stripeWidth)) ||| (flagWord l8 <<< (1 + c.stripeWidth)) |||
    (flagWord l9 <<< c.stripeWidth) ||| stripe.setWidth 16

/-- The value of data symbol `k` of a frame: bit `FRAME_LEN - 1 - k` of its word (30_encoding.md R66). -/
def symbolOf (c : Config) (w : FrameWord) (k : Nat) : Bool := w.getLsbD (frameLen c - 1 - k)

/-- `dur(k)`: T_LONG for a 1 symbol, T_TINY for a 0 symbol (41_encoder.md R85). -/
def symbolDur (c : Config) (w : FrameWord) (k : Nat) : Duration :=
  if symbolOf c w k then c.tLong else c.tTiny

end Sys2Proof.Machine
end

