-- ==== Sys2Proof/Machine/Ops.lean ====
section
/-! DEFINITION. The operations the requests share: ending a request with a response, raising an error (the block's
whole exception mechanism), arming a timer, initialising the line, starting a frame, the reset input, and taking the
next event. -/

namespace Sys2Proof.Machine

/-- `respond(s, d)`: the response ports take the status and the data word (00_scope.md R15; 30_encoding.md R53). The
host records a status other than OK (60_exceptions.md R120; log entry 5). -/
def State.respond (s : State) (status : Status) (data : Word) : State :=
  { s with
    rspStatus := status
    rspData := data
    hostErrors := if status = .ok then s.hostErrors else status :: s.hostErrors }

/-- `raise E_x`: the response is `(E_x, 0)` and no state element is written (00_scope.md R15; 60_exceptions.md R119).
The block has no trap: nothing is saved, no mode changes, and there is no return (60_exceptions.md R118, R129). -/
def State.raise (s : State) (e : Status) : State := s.respond e 0

/-- The answer to a word that spells no request (30_encoding.md R60; 60_exceptions.md R121), whatever is wrong
with it. -/
def State.answerIllegal (s : State) (_why : DecodeError) : State := s.raise .illegalOp

/-- `arm(T, d)`: START takes NOW, DUR takes `d`, ALIVE takes 1 (40_timer.md R72). -/
def armed (now : Word) (d : Duration) : Timer where
  start := now
  dur := d
  alive := true

/-- Arming the host timer (40_timer.md R78). -/
def Block.armTh (b : Block) (d : Duration) : Block := { b with th := armed b.now d }

/-- Arming the encoder timer (41_encoder.md R83, R87 to R90). -/
def Block.armTe (b : Block) (d : Duration) : Block := { b with te := armed b.now d }

/-- What an accepted BEGIN writes (41_encoder.md R82). -/
def Block.initialise (c : Config) (b : Block) : Block :=
  { b with init := true, lineOe := true, line := c.idleLevel }

/-- What an accepted SEND writes (41_encoder.md R83): the frame word, symbol index 0, the active level of the start
marker, the encoder timer armed for it. -/
def Block.startFrame (c : Config) (b : Block) (w : FrameWord) : Block :=
  { b.armTe c.tStartActive with frame := w, idx := 0, line := activeLevel c, phase := .startActive }

/-- SEND with a command byte and flags (41_encoder.md R83): the checks in the order of 60_exceptions.md R127, then the
frame. Every command is handled by it identically (42_commands.md R98). -/
def sendRequest (cmd : Byte) (l8 l9 : Bool) (stripe : BitVec 6) (s : State) : Host.Outcome State Fault Refusal :=
  if !s.blk.init then .next (s.raise .notInitialised)
  else if s.blk.busy then .next (s.raise .busy)
  else if !validCommand cmd then .next (s.raise .invalidCommand)
  else if !stripeFits s.cfg stripe then .next (s.raise .stripeRange)
  else .next ({ s with blk := s.blk.startFrame s.cfg (frameWord s.cfg cmd l8 l9 stripe) }.respond .ok 0)

/-- The reset input takes a level (70_reset_and_hazards.md R136): while it is 1 every state element holds its reset
value; the response ports are no state elements and keep theirs (log entry 4). -/
def State.setRst (s : State) (level : Bool) : State :=
  { s with rst := level, blk := if level then Block.reset s.cfg else s.blk }

/-- The next event in the total order (20_memory.md R46): the first of those to come; when none is listed the host is
silent and the time base ticks (40_timer.md R71; log entry 1). -/
def State.nextEvent (s : State) : Event :=
  match s.inputs with
  | [] => .tick
  | e :: _ => e

/-- The state with its next event taken off the list. -/
def State.takeEvent (s : State) : State := { s with inputs := s.inputs.tail }

end Sys2Proof.Machine
end

