-- ==== Sys2Proof/Machine/ControlRequests.lean ====
section
/-! DEFINITION. The control requests NOP and RDSTATE (43_control.md R116, R117). -/

namespace Sys2Proof.Machine

/-- NOP (43_control.md R116). -/
def execNop (s : State) : Host.Outcome State Fault Refusal :=
  .next (s.respond .ok 0)

/-- RDSTATE (43_control.md R117): the view, computed from the current state. -/
def execRdstate (v : View) (s : State) : Host.Outcome State Fault Refusal :=
  .next (s.respond .ok (view s.cfg s.blk v))

end Sys2Proof.Machine
end

