-- ==== Sys2Proof/Machine/EncoderRequests.lean ====
section
/-! DEFINITION. The encoder requests BEGIN and SEND (41_encoder.md R82, R83), and SEND with each command of the
command table (42_commands.md R98 to R115). -/

namespace Sys2Proof.Machine

/-- BEGIN (41_encoder.md R82). -/
def execBegin (s : State) : Host.Outcome State Fault Refusal :=
  if s.blk.busy then .next (s.raise .busy)
  else .next ({ s with blk := s.blk.initialise s.cfg }.respond .ok 0)

/-- SEND with any command byte (41_encoder.md R83). -/
def execSend (cmd : Byte) (l8 l9 : Bool) (stripe : BitVec 6) (s : State) : Host.Outcome State Fault Refusal :=
  sendRequest cmd l8 l9 stripe s

/-- SEND ON (42_commands.md R99). -/
def execSendOn (l8 l9 : Bool) (stripe : BitVec 6) (s : State) : Host.Outcome State Fault Refusal :=
  sendRequest (commandByte .on) l8 l9 stripe s

/-- SEND ON_VIB (42_commands.md R100). -/
def execSendOnVib (l8 l9 : Bool) (stripe : BitVec 6) (s : State) : Host.Outcome State Fault Refusal :=
  sendRequest (commandByte .onVib) l8 l9 stripe s

/-- SEND ON_VIB_SHOCK (42_commands.md R101). -/
def execSendOnVibShock (l8 l9 : Bool) (stripe : BitVec 6) (s : State) : Host.Outcome State Fault Refusal :=
  sendRequest (commandByte .onVibShock) l8 l9 stripe s

/-- SEND CALIB (42_commands.md R102). -/
def execSendCalib (l8 l9 : Bool) (stripe : BitVec 6) (s : State) : Host.Outcome State Fault Refusal :=
  sendRequest (commandByte .calib) l8 l9 stripe s

/-- SEND CALIB_FINISHED (42_commands.md R103). -/
def execSendCalibFinished (l8 l9 : Bool) (stripe : BitVec 6) (s : State) : Host.Outcome State Fault Refusal :=
  sendRequest (commandByte .calibFinished) l8 l9 stripe s

/-- SEND MEASURE (42_commands.md R104). -/
def execSendMeasure (l8 l9 : Bool) (stripe : BitVec 6) (s : State) : Host.Outcome State Fault Refusal :=
  sendRequest (commandByte .measure) l8 l9 stripe s

/-- SEND MEASURE_FIN_OK (42_commands.md R105). -/
def execSendMeasureFinOk (l8 l9 : Bool) (stripe : BitVec 6) (s : State) : Host.Outcome State Fault Refusal :=
  sendRequest (commandByte .measureFinOk) l8 l9 stripe s

/-- SEND MEASURE_FIN_SHOCK (42_commands.md R106). -/
def execSendMeasureFinShock (l8 l9 : Bool) (stripe : BitVec 6) (s : State) : Host.Outcome State Fault Refusal :=
  sendRequest (commandByte .measureFinShock) l8 l9 stripe s

/-- SEND MEASURE_FIN_VIB (42_commands.md R107). -/
def execSendMeasureFinVib (l8 l9 : Bool) (stripe : BitVec 6) (s : State) : Host.Outcome State Fault Refusal :=
  sendRequest (commandByte .measureFinVib) l8 l9 stripe s

/-- SEND BEEP (42_commands.md R108). -/
def execSendBeep (l8 l9 : Bool) (stripe : BitVec 6) (s : State) : Host.Outcome State Fault Refusal :=
  sendRequest (commandByte .beep) l8 l9 stripe s

/-- SEND E1 (42_commands.md R109). -/
def execSendE1 (l8 l9 : Bool) (stripe : BitVec 6) (s : State) : Host.Outcome State Fault Refusal :=
  sendRequest (commandByte .e1) l8 l9 stripe s

/-- SEND E2 (42_commands.md R110). -/
def execSendE2 (l8 l9 : Bool) (stripe : BitVec 6) (s : State) : Host.Outcome State Fault Refusal :=
  sendRequest (commandByte .e2) l8 l9 stripe s

/-- SEND E3 (42_commands.md R111). -/
def execSendE3 (l8 l9 : Bool) (stripe : BitVec 6) (s : State) : Host.Outcome State Fault Refusal :=
  sendRequest (commandByte .e3) l8 l9 stripe s

/-- SEND E4 (42_commands.md R112). -/
def execSendE4 (l8 l9 : Bool) (stripe : BitVec 6) (s : State) : Host.Outcome State Fault Refusal :=
  sendRequest (commandByte .e4) l8 l9 stripe s

/-- SEND E5 (42_commands.md R113). -/
def execSendE5 (l8 l9 : Bool) (stripe : BitVec 6) (s : State) : Host.Outcome State Fault Refusal :=
  sendRequest (commandByte .e5) l8 l9 stripe s

/-- SEND E6 (42_commands.md R114). -/
def execSendE6 (l8 l9 : Bool) (stripe : BitVec 6) (s : State) : Host.Outcome State Fault Refusal :=
  sendRequest (commandByte .e6) l8 l9 stripe s

/-- SEND E7 (42_commands.md R115). -/
def execSendE7 (l8 l9 : Bool) (stripe : BitVec 6) (s : State) : Host.Outcome State Fault Refusal :=
  sendRequest (commandByte .e7) l8 l9 stripe s

end Sys2Proof.Machine
end

