-- ==== Sys2Proof/Machine/TimerRequests.lean ====
section
/-! DEFINITION. The host timer requests TSET, TFIN and TALIVE (40_timer.md R78 to R80). -/

namespace Sys2Proof.Machine

/-- TSET (40_timer.md R78): a negative duration is refused and arms nothing; any other arms the host timer. -/
def execTset (d : BitVec 24) (s : State) : Host.Outcome State Fault Refusal :=
  if durationNegative d then .next (s.raise .invalidArgument)
  else .next ({ s with blk := s.blk.armTh (durationOf d) }.respond .ok 0)

/-- TFIN (40_timer.md R79): reads `finished(TH)`. -/
def execTfin (s : State) : Host.Outcome State Fault Refusal :=
  .next (s.respond .ok ((BitVec.ofBool (s.blk.thFinished s.cfg)).setWidth 32))

/-- TALIVE (40_timer.md R80): reads `alive(TH)`. -/
def execTalive (s : State) : Host.Outcome State Fault Refusal :=
  .next (s.respond .ok ((BitVec.ofBool s.blk.th.alive).setWidth 32))

end Sys2Proof.Machine
end

