-- ==== Sys2Proof/Machine/Dispatch.lean ====
section
/-! DEFINITION. The dispatch: one arm per constructor of Instr. -/

namespace Sys2Proof.Machine

def exec (i : Instr) (s : State) : Host.Outcome State Fault Refusal :=
  match i with
  | .nop => Sys2Proof.Machine.execNop s
  | .beginLine => Sys2Proof.Machine.execBegin s
  | .send cmd l8 l9 stripe => Sys2Proof.Machine.execSend cmd l8 l9 stripe s
  | .tset d => Sys2Proof.Machine.execTset d s
  | .tfin => Sys2Proof.Machine.execTfin s
  | .talive => Sys2Proof.Machine.execTalive s
  | .rdstate v => Sys2Proof.Machine.execRdstate v s
  | .sendOn l8 l9 stripe => Sys2Proof.Machine.execSendOn l8 l9 stripe s
  | .sendOnVib l8 l9 stripe => Sys2Proof.Machine.execSendOnVib l8 l9 stripe s
  | .sendOnVibShock l8 l9 stripe => Sys2Proof.Machine.execSendOnVibShock l8 l9 stripe s
  | .sendCalib l8 l9 stripe => Sys2Proof.Machine.execSendCalib l8 l9 stripe s
  | .sendCalibFinished l8 l9 stripe => Sys2Proof.Machine.execSendCalibFinished l8 l9 stripe s
  | .sendMeasure l8 l9 stripe => Sys2Proof.Machine.execSendMeasure l8 l9 stripe s
  | .sendMeasureFinOk l8 l9 stripe => Sys2Proof.Machine.execSendMeasureFinOk l8 l9 stripe s
  | .sendMeasureFinShock l8 l9 stripe => Sys2Proof.Machine.execSendMeasureFinShock l8 l9 stripe s
  | .sendMeasureFinVib l8 l9 stripe => Sys2Proof.Machine.execSendMeasureFinVib l8 l9 stripe s
  | .sendBeep l8 l9 stripe => Sys2Proof.Machine.execSendBeep l8 l9 stripe s
  | .sendE1 l8 l9 stripe => Sys2Proof.Machine.execSendE1 l8 l9 stripe s
  | .sendE2 l8 l9 stripe => Sys2Proof.Machine.execSendE2 l8 l9 stripe s
  | .sendE3 l8 l9 stripe => Sys2Proof.Machine.execSendE3 l8 l9 stripe s
  | .sendE4 l8 l9 stripe => Sys2Proof.Machine.execSendE4 l8 l9 stripe s
  | .sendE5 l8 l9 stripe => Sys2Proof.Machine.execSendE5 l8 l9 stripe s
  | .sendE6 l8 l9 stripe => Sys2Proof.Machine.execSendE6 l8 l9 stripe s
  | .sendE7 l8 l9 stripe => Sys2Proof.Machine.execSendE7 l8 l9 stripe s

end Sys2Proof.Machine
end

