-- ==== Sys2Proof/Machine/Sequencer.lean ====
section
/-! DEFINITION. The tick: the time base's count (40_timer.md R71) and the emission state machine's step
(41_encoder.md R86 to R91). -/

namespace Sys2Proof.Machine

/-- End of the start pulse (41_encoder.md R87). -/
def Block.endStartPulse (c : Config) (b : Block) : Block :=
  { b.armTe c.tStartGap with line := c.idleLevel, phase := .startGap }

/-- End of the start gap: the first data symbol begins (41_encoder.md R88). -/
def Block.endStartGap (c : Config) (b : Block) : Block :=
  { b.armTe (symbolDur c b.frame 0) with idx := 0, line := activeLevel c, phase := .bitActive }

/-- End of a symbol's pulse (41_encoder.md R89). -/
def Block.endPulse (c : Config) (b : Block) : Block :=
  { b.armTe c.tGap with line := c.idleLevel, phase := .bitGap }

/-- End of a symbol's gap when more symbols remain (41_encoder.md R90). -/
def Block.nextSymbol (c : Config) (b : Block) : Block :=
  { b.armTe (symbolDur c b.frame (b.idx.toNat + 1)) with
    idx := b.idx + 1, line := activeLevel c, phase := .bitActive }

/-- End of the last symbol's gap: the frame is over; the line stays where the gap left it and the encoder timer is not
re-armed (41_encoder.md R91). -/
def Block.endFrame (b : Block) : Block := { b with phase := .done, frame := 0, idx := 0 }

/-- The stage transition of each phase (41_encoder.md R86). -/
def Block.nextStage (c : Config) (b : Block) : Block :=
  match b.phase with
  | .startActive => b.endStartPulse c
  | .startGap => b.endStartGap c
  | .bitActive => b.endPulse c
  | .bitGap => if b.idx.toNat < frameLen c - 1 then b.nextSymbol c else b.endFrame
  | .idle => b
  | .done => b

/-- `seq_step()` (41_encoder.md R86): nothing while no frame is in flight or the stage's timer has not finished, else
the phase's transition. -/
def Block.seqStep (c : Config) (b : Block) : Block :=
  if !b.busy then b else if !b.teFinished c then b else b.nextStage c

/-- NOW counts one tick (10_state.md R20). -/
def Block.countTick (c : Config) (b : Block) : Block := { b with now := clockWrap c (b.now.toNat + 1) }

/-- A tick (40_timer.md R71): NOW first, then the sequencer, which reads the new NOW. -/
def Block.tick (c : Config) (b : Block) : Block := (b.countTick c).seqStep c

/-- A tick of the machine: ticks do not count while rst is asserted (70_reset_and_hazards.md R136). -/
def State.tick (s : State) : State := if s.rst then s else { s with blk := s.blk.tick s.cfg }

end Sys2Proof.Machine
end

