-- ==== Sys2Proof/Machine/Step.lean ====
section
/-! DEFINITION. One step of the machine: one event of the outside world (00_scope.md R6; 20_memory.md R44, R46). -/

namespace Sys2Proof.Machine

/-- A request as one event (20_memory.md R44): decoded and executed, or answered as illegal (30_encoding.md R60, R61).
While rst is asserted no request is processed and none is answered (70_reset_and_hazards.md R136; log entry 6). -/
def serve (q : Word) (s : State) : Host.Outcome State Fault Refusal :=
  if s.rst then .next s
  else match decode q with
    | .ok i => exec i s
    | .error why => .next (s.answerIllegal why)

/-- One event. -/
def runEvent (e : Event) (s : State) : Host.Outcome State Fault Refusal :=
  match e with
  | .request q => serve q s
  | .tick => .next s.tick
  | .rst level => .next (s.setRst level)

/-- One step: the next event. A configuration that is not legal stops the machine (93_implementation_defined.md S3;
log entry 3). -/
def step (s : State) : Host.Outcome State Fault Refusal :=
  if s.cfg.legal then runEvent s.nextEvent s.takeEvent else .fault .illegalConfiguration

/-- `s` with the request of an opcode-table row presented next: it is the first event to come, and rst is released so
that the very next step processes it. The block fetches no program (10_state.md R18); log entry 9. -/
def State.withFetchWord (s : State) (nbits w : Nat) : State :=
  { s with rst := false, inputs := .request (tableWord nbits w) :: s.inputs }

end Sys2Proof.Machine
end

