-- ==== Sys2Proof/Machine/Pseudo.lean ====
section
/-! DEFINITION. The host's pseudo-instructions TICK, SENDW and DELAY (30_encoding.md R70): a host that issues requests
and lets ticks pass. The loops take fuel, the most polls they make; log entry 14. What a loop does while rst is asserted
and nothing answers it is the model's choice; log entry 16. -/

namespace Sys2Proof.Machine

/-- Where a host's pseudo-instruction stands. -/
inductive HostRun
  /-- It has ended. -/
  | ended (s : State)
  /-- The fuel has run out while it still polls (93_implementation_defined.md S6). -/
  | polling (s : State)
  /-- The machine has stopped. -/
  | stopped
  deriving DecidableEq, Repr

/-- The host lets an event happen before those already listed, and goes on with the state it gives. -/
def hostEvent (e : Event) (s : State) (k : State → HostRun) : HostRun :=
  match step { s with inputs := e :: s.inputs } with
  | .next t => k t
  | .fault _ => .stopped
  | .refused _ => .stopped

/-- `TICK n`: `n` ticks pass (30_encoding.md R70). -/
def tickN : Nat → State → HostRun
  | 0, s => .ended s
  | n + 1, s => hostEvent .tick s (tickN n)

/-- The polling loop: issue `q`; end if its answer says so, else let a tick pass and poll again. DESIGN CHOICE (log
entry 16): a poll that gets no answer, rst being asserted, reads what `rspData` last held. -/
def pollLoop (q : Word) (ends : Word → Bool) : Nat → State → HostRun
  | 0, s => .polling s
  | n + 1, s => hostEvent (.request q) s fun t =>
      if ends t.rspData then .ended t else hostEvent .tick t (pollLoop q ends n)

/-- `SENDW` (30_encoding.md R70): SEND, then RDSTATE STATUS polled until BUSY (bit 1) reads 0; it ends at once when
the SEND is not answered OK. DESIGN CHOICE (log entry 16): while rst is asserted no request is processed (R136) and
the spec does not say what the host then does; this host reads what the response ports last held, so it may end as OK
with nothing sent. -/
def sendw (fuel : Nat) (cmd : Byte) (l8 l9 : Bool) (stripe : BitVec 6) (s : State) : HostRun :=
  hostEvent (.request (formatS cmd l8 l9 stripe)) s fun t =>
    if t.rspStatus = .ok then pollLoop (formatR 0) (fun d => !d.getLsbD 1) fuel t else .ended t

/-- `DELAY` (30_encoding.md R70): TSET, then TFIN polled until it reads 1; it ends at once when the TSET is not
answered OK. DESIGN CHOICE (log entry 16): while rst is asserted it reads what the response ports last held, so it may
end as OK with no timer armed. -/
def delay (fuel : Nat) (d : BitVec 24) (s : State) : HostRun :=
  hostEvent (.request (formatD d)) s fun t =>
    if t.rspStatus = .ok then pollLoop (formatN 0x4) (fun r => r.getLsbD 0) fuel t else .ended t

end Sys2Proof.Machine
end

