-- ==== Sys2Proof/Safety.lean ====
section
/-! DEFINITION. The terms claims about LDT-OWE are stated in: the invariant of 10_state.md R32, runs, what a SEND
carries, the part of the block a frame lives in, and the times of a frame's stages (41_encoder.md R93, R94). -/

namespace Sys2Proof.Machine

/-- The operands of a SEND, for each of the constructors that carry one. -/
def sendOperands : Instr → Option (Byte × Bool × Bool × BitVec 6)
  | .send cmd l8 l9 stripe => some (cmd, l8, l9, stripe)
  | .sendOn l8 l9 stripe => some (0xa0, l8, l9, stripe)
  | .sendOnVib l8 l9 stripe => some (0x30, l8, l9, stripe)
  | .sendOnVibShock l8 l9 stripe => some (0x20, l8, l9, stripe)
  | .sendCalib l8 l9 stripe => some (0x80, l8, l9, stripe)
  | .sendCalibFinished l8 l9 stripe => some (0x90, l8, l9, stripe)
  | .sendMeasure l8 l9 stripe => some (0x10, l8, l9, stripe)
  | .sendMeasureFinOk l8 l9 stripe => some (0x00, l8, l9, stripe)
  | .sendMeasureFinShock l8 l9 stripe => some (0x60, l8, l9, stripe)
  | .sendMeasureFinVib l8 l9 stripe => some (0x70, l8, l9, stripe)
  | .sendBeep l8 l9 stripe => some (0x40, l8, l9, stripe)
  | .sendE1 l8 l9 stripe => some (0x50, l8, l9, stripe)
  | .sendE2 l8 l9 stripe => some (0xb0, l8, l9, stripe)
  | .sendE3 l8 l9 stripe => some (0xc0, l8, l9, stripe)
  | .sendE4 l8 l9 stripe => some (0xd0, l8, l9, stripe)
  | .sendE5 l8 l9 stripe => some (0xe0, l8, l9, stripe)
  | .sendE6 l8 l9 stripe => some (0xf0, l8, l9, stripe)
  | .sendE7 l8 l9 stripe => some (0xa8, l8, l9, stripe)
  | .nop => none
  | .beginLine => none
  | .tset _ => none
  | .tfin => none
  | .talive => none
  | .rdstate _ => none

/-- The phases in which a data symbol is in flight (10_state.md R29). -/
def Phase.inSymbol (p : Phase) : Prop := p = .bitActive ∨ p = .bitGap

/-- The invariant of the block's state elements. `driven` to `lineLevel` are (a) to (e) of 10_state.md R32; (f) holds by
the type of phases. The rest are the ranges of R19, R29 and R30. -/
structure Block.Inv (c : Config) (b : Block) : Prop where
  /-- NOW, TH.START and TE.START hold CLOCK_BITS bits (R19). -/
  nowFits : b.now.toNat < 2 ^ c.clockBits
  thStartFits : b.th.start.toNat < 2 ^ c.clockBits
  teStartFits : b.te.start.toNat < 2 ^ c.clockBits
  /-- R32 (a). -/
  driven : b.busy = true → b.init = true ∧ b.lineOe = true
  /-- R32 (b). -/
  initIsOe : b.init = b.lineOe
  /-- R32 (c). -/
  quiet : b.busy = false → b.line = c.idleLevel ∧ b.idx = 0 ∧ b.frame = 0
  /-- R32 (d). -/
  timed : b.busy = true → b.te.alive = true ∧ 1 ≤ b.te.dur.toNat ∧ b.te.elapsed c b.now < b.te.dur.toNat
  /-- R32 (e). -/
  lineLevel : b.line = activeLevel c ↔ b.phase = .startActive ∨ b.phase = .bitActive
  /-- R29. -/
  idxInFrame : b.phase.inSymbol → b.idx.toNat < frameLen c
  idxZero : ¬ b.phase.inSymbol → b.idx = 0
  /-- R30. -/
  frameFits : b.frame.toNat < 2 ^ frameLen c

/-- The invariant of the machine: a legal configuration, the block's invariant, and the reset values while rst is
asserted (70_reset_and_hazards.md R136). -/
structure State.Inv (s : State) : Prop where
  legal : s.cfg.legal = true
  blk : s.blk.Inv s.cfg
  held : s.rst = true → s.blk = Block.reset s.cfg

/-- `n` steps lead from `s` to `t`, without a fault or a refusal: what `Host.Core.run` of the machine answers
(Laws/Run.lean, `runsTo_iff_run`). -/
def RunsTo : Nat → State → State → Prop
  | 0, s, t => t = s
  | n + 1, s, t => ∃ u, step s = .next u ∧ RunsTo n u t

/-- Two blocks agree on all that the encoder and its frame live in: everything but NOW and the host timer. -/
def Block.SameEncoder (b b' : Block) : Prop :=
  b'.te = b.te ∧ b'.init = b.init ∧ b'.lineOe = b.lineOe ∧ b'.line = b.line ∧ b'.phase = b.phase ∧ b'.idx = b.idx ∧
    b'.frame = b.frame

/-- How many ticks a list of events holds. -/
def tickCount : List Event → Nat
  | [] => 0
  | .tick :: es => tickCount es + 1
  | .request _ :: es => tickCount es
  | .rst _ :: es => tickCount es

/-- An event that neither resets the block nor is a BEGIN or a SEND. -/
def Event.sparesEncoder : Event → Bool
  | .tick => true
  | .rst _ => false
  | .request q =>
    match decode q with
    | .ok .beginLine => false
    | .ok i => (sendOperands i).isNone
    | .error _ => true

/-- An event that does not assert the reset input. -/
def Event.sparesReset : Event → Bool
  | .tick => true
  | .rst level => !level
  | .request _ => true

/-- A request that carries a SEND. -/
def Instr.isSend (i : Instr) : Bool := (sendOperands i).isSome

/-- The request TSET. -/
def Instr.isTset : Instr → Bool
  | .tset _ => true
  | _ => false

/-- The request BEGIN. -/
def Instr.isBegin : Instr → Bool
  | .beginLine => true
  | _ => false

/-- The next step processes a request that `p` holds of and answers it OK: it is accepted (30_encoding.md R53). -/
def State.accepts (p : Instr → Bool) (s : State) : Bool :=
  match s.nextEvent with
  | .tick => false
  | .rst _ => false
  | .request q =>
    match decode q with
    | .error _ => false
    | .ok i =>
      !s.rst && p i &&
        match step s with
        | .next t => decide (t.rspStatus = .ok)
        | .fault _ => false
        | .refused _ => false

/-- None of the next `n` steps accepts a request that `p` holds of; it may be refused. -/
def avoids (p : Instr → Bool) : Nat → State → Bool
  | 0, _ => true
  | n + 1, s =>
    !s.accepts p &&
      match step s with
      | .next t => avoids p n t
      | .fault _ => true
      | .refused _ => true

/-- `b_k - t0` of 41_encoder.md R93: how many ticks after its SEND symbol `k` of a frame begins. -/
def symbolStart (c : Config) (w : FrameWord) : Nat → Nat
  | 0 => c.tStartActive.toNat + c.tStartGap.toNat
  | k + 1 => symbolStart c w k + (symbolDur c w k).toNat + c.tGap.toNat

/-- `n1` of 41_encoder.md R94: how many of the frame's data symbols are 1. -/
def frameOnes (c : Config) (w : FrameWord) : Nat :=
  ((List.range (frameLen c)).filter (symbolOf c w)).length

/-- `F` of 41_encoder.md R94: the ticks from a SEND to DONE. -/
def frameTicks (c : Config) (w : FrameWord) : Nat :=
  c.tStartActive.toNat + c.tStartGap.toNat + frameLen c * c.tGap.toNat + frameOnes c w * c.tLong.toNat +
    (frameLen c - frameOnes c w) * c.tTiny.toNat

/-- What may happen after a SEND with frame word `w` for the frame to run its course: anything but a reset and, should
the events go past the end of the frame, anything but an accepted SEND (41_encoder.md R93, "until the next SEND or
reset"). -/
def State.LeavesFrame (s : State) (w : FrameWord) (es : List Event) : Prop :=
  (∀ e ∈ es, e.sparesReset = true) ∧
    (tickCount es < frameTicks s.cfg w ∨ avoids Instr.isSend es.length { s with inputs := es } = true)

/-- The state after a request refused with `e` (60_exceptions.md R119): only the response ports and the host's record
(log entry 5) differ. -/
def State.refusedWith (e : Status) (s : State) : State :=
  { s with rspStatus := e, rspData := 0, hostErrors := e :: s.hostErrors }

/-- The words that spell no request, by the cases (a) to (f) of 30_encoding.md R60. -/
def illegalWord (q : Word) : Prop :=
  7 ≤ q.toNat / 2 ^ 28 ∨
  ((q.toNat / 2 ^ 28 = 0 ∨ q.toNat / 2 ^ 28 = 1 ∨ q.toNat / 2 ^ 28 = 4 ∨ q.toNat / 2 ^ 28 = 5) ∧
    q.toNat % 2 ^ 28 ≠ 0) ∨
  (q.toNat / 2 ^ 28 = 2 ∧ q.toNat / 2 ^ 16 % 2 ^ 12 ≠ 0) ∨
  (q.toNat / 2 ^ 28 = 3 ∧ q.toNat / 2 ^ 24 % 2 ^ 4 ≠ 0) ∨
  (q.toNat / 2 ^ 28 = 6 ∧ q.toNat / 2 ^ 4 % 2 ^ 24 ≠ 0) ∨
  (q.toNat / 2 ^ 28 = 6 ∧ 11 ≤ q.toNat % 2 ^ 4)

/-- The host can have its requests processed: a legal configuration and rst released. -/
structure State.Ready (s : State) : Prop where
  legal : s.cfg.legal = true
  released : s.rst = false

end Sys2Proof.Machine
end

