-- ==== Sys2Proof/Certificates/Slice0/Obligations.lean ====
section
/-! DEFINITION. The statements about LDT-OWE for the provers, from the numbered rules of spec/. -/

open Sys2Proof Sys2Proof.Machine

/-! ### Encoding -/

/-- Decoding the word of a well-formed request gives the request back, for all 24 constructors and every operand
(30_encoding.md, formats N, S, D and R; log entry 7 for the split of SEND words). -/
def Obligations.DecodeOfEncode : Prop :=
  ∀ i : Instr, i.wellFormed = true → decode (encode i) = .ok i

/-- A word that decodes is the word its request encodes to: no two words spell one request. -/
def Obligations.EncodeOfDecode : Prop :=
  ∀ (q : Word) (i : Instr), decode q = .ok i → i.wellFormed = true ∧ encode i = q

/-- R60: the illegal words are exactly those of its cases (a) to (f), and the block answers one with E_ILLEGAL_OP
(code 1, R121) and changes no state element. -/
def Obligations.IllegalWordsAnswered : Prop :=
  (∀ q : Word, (∃ why, decode q = .error why) ↔ illegalWord q) ∧
  (∀ (s : State) (q : Word) (rest : List Event), s.cfg.legal = true → s.rst = false →
    s.inputs = .request q :: rest → illegalWord q →
    step s = .next ({ s with inputs := rest }.refusedWith .illegalOp)) ∧
  Status.illegalOp.code = 1

/-- R59: the operands a legal word carries. -/
def Obligations.OperandsOfAWord : Prop :=
  ∀ q : Word, ¬ illegalWord q →
    (q.toNat / 2 ^ 28 = 2 → ∃ i, decode q = .ok i ∧
      sendOperands i = some (BitVec.ofNat 8 q.toNat, decide (q.toNat / 2 ^ 8 % 2 = 1),
        decide (q.toNat / 2 ^ 9 % 2 = 1), BitVec.ofNat 6 (q.toNat / 2 ^ 10))) ∧
    (q.toNat / 2 ^ 28 = 3 → ∃ d : BitVec 24, decode q = .ok (.tset d) ∧
      d.toInt = (if q.toNat % 2 ^ 24 < 2 ^ 23 then (q.toNat % 2 ^ 24 : Int) else (q.toNat % 2 ^ 24 : Int) - 2 ^ 24) ∧
      (0 ≤ d.toInt → ((durationOf d).toNat : Int) = d.toInt)) ∧
    (q.toNat / 2 ^ 28 = 6 → ∃ v, decode q = .ok (.rdstate v) ∧ (selOf v).toNat = q.toNat % 2 ^ 4)

/-- The words of the assembler's lines, as their shifted operands put together, and the operand ranges it refuses
outside of (30_encoding.md section 8; log entry 15). -/
def Obligations.AssemblerWords : Prop :=
  (∀ cmd l8 l9 stripe : Nat, assemble (.send (.inr cmd) l8 l9 stripe) =
    if cmd ≤ 255 ∧ l8 ≤ 1 ∧ l9 ≤ 1 ∧ stripe ≤ 63 then
      some (0x20000000#32 ||| BitVec.ofNat 32 stripe <<< 10 ||| BitVec.ofNat 32 l9 <<< 9 |||
        BitVec.ofNat 32 l8 <<< 8 ||| BitVec.ofNat 32 cmd) else none) ∧
  (∀ (k : Command) (l8 l9 stripe : Nat), assemble (.send (.inl k) l8 l9 stripe) =
    assemble (.send (.inr (commandByte k).toNat) l8 l9 stripe)) ∧
  (∀ d : Int, assemble (.tset d) =
    if -8388608 ≤ d ∧ d ≤ 8388607 then some (0x30000000#32 ||| BitVec.ofNat 32 (d % 2 ^ 24).toNat) else none) ∧
  (∀ sel : Nat, assemble (.rdstate (.inr sel)) =
    if sel ≤ 10 then some (0x60000000#32 ||| BitVec.ofNat 32 sel) else none) ∧
  [View.status, .now, .thStart, .thDur, .thFlags, .teStart, .teDur, .teFlags, .seq, .frame, .config].map
      (fun v => assemble (.rdstate (.inl v))) =
    [some 0x60000000, some 0x60000001, some 0x60000002, some 0x60000003, some 0x60000004, some 0x60000005,
      some 0x60000006, some 0x60000007, some 0x60000008, some 0x60000009, some 0x6000000A] ∧
  assemble .nop = some 0x00000000 ∧ assemble .beginLine = some 0x10000000 ∧ assemble .tfin = some 0x40000000 ∧
  assemble .talive = some 0x50000000

/-- A few words of 95_test_vectors.md decode to the requests they stand for (a sanity statement). That a SEND word of
a command of the table reads as the command's own constructor, sendE7 and sendOn here, is the model's choice (log
entry 7). -/
def Obligations.ReferenceWordsDecode : Prop :=
  decode 0x10000000 = .ok .beginLine ∧
  decode 0x20000FA8 = .ok (.sendE7 true true 3) ∧
  decode 0x200010A0 = .ok (.sendOn false false 4) ∧
  decode 0x20000011 = .ok (.send 0x11 false false 0) ∧
  decode 0x30FFFFFF = .ok (.tset (-1)) ∧
  decode 0x6000000A = .ok (.rdstate .config) ∧
  decode 0x6000000B = .error .unknownView ∧
  decode 0x200100A0 = .error .reservedBits ∧
  decode 0x70000000 = .error .reservedOpcode

/-- R62: the valid command bytes are exactly the 17 patterns of the table. -/
def Obligations.ValidCommandBytes : Prop :=
  (∀ b : Byte, validCommand b = true ↔
    b ∈ [0xa0#8, 0x30#8, 0x20#8, 0x80#8, 0x90#8, 0x10#8, 0x00#8, 0x60#8, 0x70#8, 0x40#8, 0x50#8, 0xb0#8, 0xc0#8,
      0xd0#8, 0xe0#8, 0xf0#8, 0xa8#8]) ∧
  commandTable.map commandByte =
    [0xa0#8, 0x30#8, 0x20#8, 0x80#8, 0x90#8, 0x10#8, 0x00#8, 0x60#8, 0x70#8, 0x40#8, 0x50#8, 0xb0#8, 0xc0#8, 0xd0#8,
      0xe0#8, 0xf0#8, 0xa8#8]

/-- The bit structure of the command table, an inference the spec marks as its own (30_encoding.md R63). -/
def Obligations.CommandTableBits : Prop :=
  (∀ n : BitVec 4, ∃! k : Command, k ≠ .e7 ∧ (commandByte k).extractLsb' 4 4 = n) ∧
  (commandByte .e7).extractLsb' 4 4 = (commandByte .on).extractLsb' 4 4 ∧
  commandByte .e7 ^^^ commandByte .on = 0x08 ∧
  (∀ k : Command, (commandByte k).extractLsb' 0 3 = 0) ∧
  (∀ k : Command, (commandByte k).getLsbD 3 = true ↔ k = .e7)

/-! ### Steps and responses -/

/-- A request presented next and legal is executed: step is exec of it, on the state whose event has been taken. -/
def Obligations.StepRunsTheDecodedRequest : Prop :=
  ∀ (s : State) (q : Word) (i : Instr) (rest : List Event), s.cfg.legal = true → s.rst = false →
    s.inputs = .request q :: rest → decode q = .ok i → step s = exec i { s with inputs := rest }

/-- In a legal configuration every step answers a next state, whatever the event and the state: nothing of the block
stops (60_exceptions.md section 1). The event is taken, and the configuration never changes (00_scope.md section 3). -/
def Obligations.EveryEventIsAnswered : Prop :=
  ∀ s : State, s.cfg.legal = true → ∃ t, step s = .next t ∧ t.inputs = s.inputs.tail ∧ t.cfg = s.cfg

/-- The model's choice (log entry 3, from 93_implementation_defined.md S3): an illegal configuration is a fault. -/
def Obligations.IllegalConfigurationStops : Prop :=
  ∀ s : State, s.cfg.legal = false → step s = .fault .illegalConfiguration

/-- R53: every request gives one response; the codes; the data word is the query result of
TFIN, TALIVE and RDSTATE, and 0 in every other case; which requests raise which status. -/
def Obligations.ResponseOfEveryRequest : Prop :=
  [Status.ok, .illegalOp, .invalidArgument, .invalidCommand, .stripeRange, .notInitialised, .busy].map Status.code =
    [0, 1, 2, 3, 4, 5, 6] ∧
  (∀ e : Status, e.code.toNat ≤ 6) ∧
  (∀ (i : Instr) (s : State), ∃ t, exec i s = .next t ∧
    (t.rspStatus ≠ .ok → t.rspData = 0) ∧
    (t.rspStatus = .ok →
      (i = .tfin → t.rspData = if s.blk.thFinished s.cfg = true then 1 else 0) ∧
      (i = .talive → t.rspData = if s.blk.th.alive = true then 1 else 0) ∧
      (∀ v, i = .rdstate v → t.rspData = view s.cfg s.blk v)) ∧
    (i ≠ .tfin → i ≠ .talive → (∀ v, i ≠ .rdstate v) → t.rspData = 0) ∧
    t.rspStatus ≠ .illegalOp ∧
    (t.rspStatus = .invalidArgument → ∃ d, i = .tset d) ∧
    (t.rspStatus = .invalidCommand ∨ t.rspStatus = .stripeRange ∨ t.rspStatus = .notInitialised →
      (sendOperands i).isSome) ∧
    (t.rspStatus = .busy → (sendOperands i).isSome ∨ i = .beginLine)) ∧
  (∀ (q : Word) (s : State), s.rst = false → illegalWord q →
    ∃ t, serve q s = .next t ∧ t.rspStatus = .illegalOp ∧ t.rspData = 0)

/-- R119: a request answered with any status other than OK writes no state element, and its response is `(code, 0)`. -/
def Obligations.RefusedRequestWritesNothing : Prop :=
  ∀ (q : Word) (s t : State), s.rst = false → serve q s = .next t → t.rspStatus ≠ .ok →
    t.blk = s.blk ∧ t.rspData = 0 ∧ t = s.refusedWith t.rspStatus

/-- R127: the order in which each request's errors are reported. -/
def Obligations.ErrorPriority : Prop :=
  (∀ (q : Word) (s : State), s.rst = false → q.toNat / 2 ^ 28 = 2 →
    (q.toNat / 2 ^ 16 % 2 ^ 12 ≠ 0 → serve q s = .next (s.refusedWith .illegalOp)) ∧
    (q.toNat / 2 ^ 16 % 2 ^ 12 = 0 →
      (s.blk.init = false → serve q s = .next (s.refusedWith .notInitialised)) ∧
      (s.blk.init = true → s.blk.busy = true → serve q s = .next (s.refusedWith .busy)) ∧
      (s.blk.init = true → s.blk.busy = false → validCommand (BitVec.ofNat 8 q.toNat) = false →
        serve q s = .next (s.refusedWith .invalidCommand)) ∧
      (s.blk.init = true → s.blk.busy = false → validCommand (BitVec.ofNat 8 q.toNat) = true →
        2 ^ s.cfg.stripeWidth ≤ q.toNat / 2 ^ 10 % 2 ^ 6 → serve q s = .next (s.refusedWith .stripeRange)))) ∧
  (∀ (q : Word) (s : State), s.rst = false → q.toNat / 2 ^ 28 = 1 →
    (q.toNat % 2 ^ 28 ≠ 0 → serve q s = .next (s.refusedWith .illegalOp)) ∧
    (q.toNat % 2 ^ 28 = 0 → s.blk.busy = true → serve q s = .next (s.refusedWith .busy))) ∧
  (∀ (q : Word) (s : State), s.rst = false → q.toNat / 2 ^ 28 = 3 →
    (q.toNat / 2 ^ 24 % 2 ^ 4 ≠ 0 → serve q s = .next (s.refusedWith .illegalOp)) ∧
    (q.toNat / 2 ^ 24 % 2 ^ 4 = 0 → 2 ^ 23 ≤ q.toNat % 2 ^ 24 →
      serve q s = .next (s.refusedWith .invalidArgument))) ∧
  (∀ (q : Word) (s t : State), s.rst = false →
    (q.toNat / 2 ^ 28 = 0 ∨ q.toNat / 2 ^ 28 = 4 ∨ q.toNat / 2 ^ 28 = 5 ∨ q.toNat / 2 ^ 28 = 6) →
    serve q s = .next t →
    (illegalWord q → t.rspStatus = .illegalOp) ∧ (¬ illegalWord q → t.rspStatus = .ok)) ∧
  (∀ s : State, s.Inv → ¬ (s.blk.init = false ∧ s.blk.busy = true))

/-- The model's own record (log entry 5, from 60_exceptions.md section 1 and 93_implementation_defined.md): a step
grows it by exactly the status of a request answered with other than OK, illegal words among them, and by nothing
else; and nothing reads it: with any other record every step and every request goes the same way. -/
def Obligations.HostRecordsEveryError : Prop :=
  (∀ s t : State, step s = .next t →
    (∀ q, s.nextEvent = .request q → s.rst = false →
      t.hostErrors = (if t.rspStatus = .ok then s.hostErrors else t.rspStatus :: s.hostErrors)) ∧
    ((∀ q, s.nextEvent ≠ .request q) ∨ s.rst = true → t.hostErrors = s.hostErrors) ∧
    ∀ h : List Status, ∃ h', step { s with hostErrors := h } = .next { t with hostErrors := h' }) ∧
  (∀ (i : Instr) (s t : State), exec i s = .next t →
    t.hostErrors = (if t.rspStatus = .ok then s.hostErrors else t.rspStatus :: s.hostErrors) ∧
    ∀ h : List Status, ∃ h', exec i { s with hostErrors := h } = .next { t with hostErrors := h' })

/-! ### The control and timer requests -/

/-- R116: NOP is accepted in every state and changes nothing. -/
def Obligations.NopDoesNothing : Prop :=
  (∀ s : State, exec .nop s = .next { s with rspStatus := .ok, rspData := 0 }) ∧
  (∀ q : Word, q.toNat / 2 ^ 28 = 0 → decode q = if q = 0 then .ok .nop else .error .reservedBits)

/-- R117 and the layout of the eleven views: RDSTATE is accepted in every state, changes nothing, and its data word is
the view's fields at their places; the codes PHASE reads as (10_state.md R28). -/
def Obligations.RdstateReadsTheViews : Prop :=
  (∀ (v : View) (s : State), ∃ d : Word, exec (.rdstate v) s = .next { s with rspStatus := .ok, rspData := d } ∧
    (s.cfg.legal = true →
      match v with
      | .status => d.toNat = s.blk.init.toNat + 2 * (decide (s.blk.phase ≠ .idle ∧ s.blk.phase ≠ .done)).toNat +
          4 * (decide (s.blk.phase = .done)).toNat + 8 * s.blk.line.toNat + 16 * s.blk.lineOe.toNat
      | .now => d = s.blk.now
      | .thStart => d = s.blk.th.start
      | .thDur => d.toNat = s.blk.th.dur.toNat
      | .thFlags => d.toNat = s.blk.th.alive.toNat + 2 * (s.blk.thFinished s.cfg).toNat
      | .teStart => d = s.blk.te.start
      | .teDur => d.toNat = s.blk.te.dur.toNat
      | .teFlags => d.toNat = s.blk.te.alive.toNat + 2 * (s.blk.teFinished s.cfg).toNat
      | .seq => d.toNat = s.blk.phase.code.toNat + 2 ^ 8 * s.blk.idx.toNat
      | .frame => d.toNat = s.blk.frame.toNat
      | .config => d.toNat = s.cfg.stripeWidth + 2 ^ 4 * s.cfg.idleLevel.toNat + 2 ^ 8 * (10 + s.cfg.stripeWidth) +
          2 ^ 16 * s.cfg.clockBits)) ∧
  (∀ q : Word, q.toNat / 2 ^ 28 = 6 →
    (if q.toNat / 2 ^ 4 % 2 ^ 24 = 0 ∧ q.toNat % 2 ^ 4 ≤ 10 then
      ∃ v, decode q = .ok (.rdstate v) ∧ (selOf v).toNat = q.toNat % 2 ^ 4
    else ∃ why, decode q = .error why)) ∧
  [View.status, .now, .thStart, .thDur, .thFlags, .teStart, .teDur, .teFlags, .seq, .frame, .config].map selOf =
    [0, 1, 2, 3, 4, 5, 6, 7, 8, 9, 10] ∧
  [Phase.idle, .startActive, .startGap, .bitActive, .bitGap, .done].map Phase.code = [0, 1, 2, 3, 4, 5]

/-- R78: TSET arms the host timer at NOW, or refuses a negative duration and arms nothing; its encoding; what TFIN
reads right after it. -/
def Obligations.TsetArmsTheHostTimer : Prop :=
  (∀ (d : BitVec 24) (s : State), 0 ≤ d.toInt → exec (.tset d) s = .next { s with
    blk := { s.blk with th := { start := s.blk.now, dur := BitVec.ofNat 23 d.toInt.toNat, alive := true } }
    rspStatus := .ok
    rspData := 0 }) ∧
  (∀ (d : BitVec 24) (s : State), d.toInt < 0 → exec (.tset d) s = .next (s.refusedWith .invalidArgument)) ∧
  (∀ (d : BitVec 24) (s t : State), 0 ≤ d.toInt → exec (.tset d) s = .next t →
    t.blk.thFinished t.cfg = decide (d = 0)) ∧
  (∀ q : Word, q.toNat / 2 ^ 28 = 3 → decode q =
    if q.toNat / 2 ^ 24 % 2 ^ 4 = 0 then .ok (.tset (BitVec.ofNat 24 q.toNat)) else .error .reservedBits)

/-- R79: TFIN reads whether the host timer is alive and its elapsed time, modulo the clock, has reached its duration;
it writes nothing. -/
def Obligations.TfinReadsFinished : Prop :=
  (∀ s : State, s.cfg.legal = true → s.blk.now.toNat < 2 ^ s.cfg.clockBits →
    s.blk.th.start.toNat < 2 ^ s.cfg.clockBits →
    exec .tfin s = .next { s with
      rspStatus := .ok
      rspData := if s.blk.th.alive = true ∧ s.blk.th.dur.toNat ≤
          (s.blk.now.toNat + 2 ^ s.cfg.clockBits - s.blk.th.start.toNat) % 2 ^ s.cfg.clockBits
        then 1 else 0 }) ∧
  (∀ s : State, ∃ d, exec .tfin s = .next { s with rspStatus := .ok, rspData := d }) ∧
  (∀ q : Word, q.toNat / 2 ^ 28 = 4 → decode q = if q = 0x40000000 then .ok .tfin else .error .reservedBits)

/-- R80: TALIVE reads whether the host timer is armed; it writes nothing. From reset until the first accepted TSET it
reads 0; an accepted TSET makes it read 1, and so it does from then until the next reset, whatever else happens. -/
def Obligations.TaliveReadsAlive : Prop :=
  (∀ s : State, exec .talive s = .next { s with
    rspStatus := .ok
    rspData := if s.blk.th.alive = true then 1 else 0 }) ∧
  (∀ q : Word, q.toNat / 2 ^ 28 = 5 → decode q = if q = 0x50000000 then .ok .talive else .error .reservedBits) ∧
  (∀ (s : State) (es : List Event), s.cfg.legal = true → s.blk = Block.reset s.cfg →
    avoids Instr.isTset es.length { s with inputs := es } = true →
    ∃ u, RunsTo es.length { s with inputs := es } u ∧
      exec .talive u = .next { u with rspStatus := .ok, rspData := 0 }) ∧
  (∀ (d : BitVec 24) (s t : State), exec (.tset d) s = .next t → t.rspStatus = .ok → t.blk.th.alive = true) ∧
  (∀ (s : State) (es : List Event), s.cfg.legal = true → s.blk.th.alive = true →
    (∀ e ∈ es, e.sparesReset = true) →
    ∃ u, RunsTo es.length { s with inputs := es } u ∧
      exec .talive u = .next { u with rspStatus := .ok, rspData := 1 })

/-- The queries write no state element, and asked again before another event they give the same answer
(20_memory.md section 4). -/
def Obligations.QueriesAreIdempotent : Prop :=
  ∀ (i : Instr) (s t : State), i = .nop ∨ i = .tfin ∨ i = .talive ∨ (∃ v, i = .rdstate v) → exec i s = .next t →
    t.blk = s.blk ∧ t.rspStatus = .ok ∧ exec i t = .next t

/-! ### BEGIN and SEND -/

/-- R82: BEGIN drives the line at its idle level, or is refused during a frame; a second BEGIN changes nothing; its
encoding. -/
def Obligations.BeginInitialisesTheLine : Prop :=
  (∀ s : State, s.blk.busy = false → exec .beginLine s = .next { s with
    blk := { s.blk with init := true, lineOe := true, line := s.cfg.idleLevel }
    rspStatus := .ok
    rspData := 0 }) ∧
  (∀ s : State, s.blk.busy = true → exec .beginLine s = .next (s.refusedWith .busy)) ∧
  (∀ s : State, s.Inv → s.blk.init = true → s.blk.busy = false →
    exec .beginLine s = .next { s with rspStatus := .ok, rspData := 0 }) ∧
  (∀ q : Word, q.toNat / 2 ^ 28 = 1 → decode q = if q = 0x10000000 then .ok .beginLine else .error .reservedBits)

/-- R83: a SEND that passes its checks starts a frame, and each failing check refuses it. `i` is any of the 18
constructors that carry a SEND; a command's own constructor always passes the command check. -/
def Obligations.SendStartsAFrame : Prop :=
  (∀ (i : Instr) (cmd : Byte) (l8 l9 : Bool) (stripe : BitVec 6) (s : State),
    sendOperands i = some (cmd, l8, l9, stripe) →
    (s.blk.init = true → s.blk.busy = false → validCommand cmd = true → stripe.toNat < 2 ^ s.cfg.stripeWidth →
      exec i s = .next { s with
        blk := { s.blk with
          frame := frameWord s.cfg cmd l8 l9 stripe
          idx := 0
          line := !s.cfg.idleLevel
          te := { start := s.blk.now, dur := s.cfg.tStartActive, alive := true }
          phase := .startActive }
        rspStatus := .ok
        rspData := 0 }) ∧
    (s.blk.init = false → exec i s = .next (s.refusedWith .notInitialised)) ∧
    (s.blk.init = true → s.blk.busy = true → exec i s = .next (s.refusedWith .busy)) ∧
    (s.blk.init = true → s.blk.busy = false → validCommand cmd = false →
      exec i s = .next (s.refusedWith .invalidCommand)) ∧
    (s.blk.init = true → s.blk.busy = false → validCommand cmd = true → 2 ^ s.cfg.stripeWidth ≤ stripe.toNat →
      exec i s = .next (s.refusedWith .stripeRange))) ∧
  (∀ q : Word, q.toNat / 2 ^ 28 = 2 →
    if q.toNat / 2 ^ 16 % 2 ^ 12 = 0 then
      ∃ i, decode q = .ok i ∧
        sendOperands i = some (BitVec.ofNat 8 q.toNat, decide (q.toNat / 2 ^ 8 % 2 = 1),
          decide (q.toNat / 2 ^ 9 % 2 = 1), BitVec.ofNat 6 (q.toNat / 2 ^ 10))
    else decode q = .error .reservedBits)

/-- Each command of the table, sent by its own constructor, starts the frame of its byte: all 17 commands
sendOn, sendOnVib, sendOnVibShock, sendCalib, sendCalibFinished, sendMeasure, sendMeasureFinOk, sendMeasureFinShock,
sendMeasureFinVib, sendBeep, sendE1 to sendE7 (42_commands.md section 3). -/
def Obligations.EachCommandStartsItsFrame : Prop :=
  ∀ (s : State) (l8 l9 : Bool) (stripe : BitVec 6), s.blk.init = true → s.blk.busy = false →
    stripe.toNat < 2 ^ s.cfg.stripeWidth →
    ∀ p ∈ ([(.sendOn l8 l9 stripe, 0xa0), (.sendOnVib l8 l9 stripe, 0x30), (.sendOnVibShock l8 l9 stripe, 0x20),
        (.sendCalib l8 l9 stripe, 0x80), (.sendCalibFinished l8 l9 stripe, 0x90), (.sendMeasure l8 l9 stripe, 0x10),
        (.sendMeasureFinOk l8 l9 stripe, 0x00), (.sendMeasureFinShock l8 l9 stripe, 0x60),
        (.sendMeasureFinVib l8 l9 stripe, 0x70), (.sendBeep l8 l9 stripe, 0x40), (.sendE1 l8 l9 stripe, 0x50),
        (.sendE2 l8 l9 stripe, 0xb0), (.sendE3 l8 l9 stripe, 0xc0), (.sendE4 l8 l9 stripe, 0xd0),
        (.sendE5 l8 l9 stripe, 0xe0), (.sendE6 l8 l9 stripe, 0xf0), (.sendE7 l8 l9 stripe, 0xa8)] :
        List (Instr × Byte)),
      exec p.1 s = .next { s with
        blk := { s.blk with
          frame := frameWord s.cfg p.2 l8 l9 stripe
          idx := 0
          line := !s.cfg.idleLevel
          te := { start := s.blk.now, dur := s.cfg.tStartActive, alive := true }
          phase := .startActive }
        rspStatus := .ok
        rspData := 0 }

/-- R84: the frame word is the number `{CMD, L8, L9, STRIPE}`, of FRAME_LEN bits, for every stripe that fits. -/
def Obligations.FrameWordIsTheConcatenation : Prop :=
  ∀ (c : Config) (cmd : Byte) (l8 l9 : Bool) (stripe : BitVec 6), c.legal = true →
    stripe.toNat < 2 ^ c.stripeWidth →
    (frameWord c cmd l8 l9 stripe).toNat = cmd.toNat * 2 ^ (2 + c.stripeWidth) + l8.toNat * 2 ^ (1 + c.stripeWidth) +
      l9.toNat * 2 ^ c.stripeWidth + stripe.toNat ∧
    (frameWord c cmd l8 l9 stripe).toNat < 2 ^ frameLen c

/-- Which operand bit each symbol of a frame carries, under REF and in general: an inference the spec marks as its own
(30_encoding.md R67). -/
def Obligations.SymbolPositions : Prop :=
  ∀ (c : Config) (cmd : Byte) (l8 l9 : Bool) (stripe : BitVec 6), c.legal = true →
    stripe.toNat < 2 ^ c.stripeWidth →
    (∀ k, k ≤ 7 → symbolOf c (frameWord c cmd l8 l9 stripe) k = cmd.getLsbD (7 - k)) ∧
    symbolOf c (frameWord c cmd l8 l9 stripe) 8 = l8 ∧
    symbolOf c (frameWord c cmd l8 l9 stripe) 9 = l9 ∧
    (∀ k, 10 ≤ k → k ≤ 9 + c.stripeWidth →
      symbolOf c (frameWord c cmd l8 l9 stripe) k = stripe.getLsbD (9 + c.stripeWidth - k))

/-- The first eight symbols of every command's frame, as 42_commands.md section 2 lists them (true is T, a 1). -/
def Obligations.CommandSymbols : Prop :=
  ∀ (c : Config) (l8 l9 : Bool) (stripe : BitVec 6), c.legal = true → stripe.toNat < 2 ^ c.stripeWidth →
    commandTable.map
        (fun k => (List.range 8).map (symbolOf c (frameWord c (commandByte k) l8 l9 stripe))) =
      [[true, false, true, false, false, false, false, false],
       [false, false, true, true, false, false, false, false],
       [false, false, true, false, false, false, false, false],
       [true, false, false, false, false, false, false, false],
       [true, false, false, true, false, false, false, false],
       [false, false, false, true, false, false, false, false],
       [false, false, false, false, false, false, false, false],
       [false, true, true, false, false, false, false, false],
       [false, true, true, true, false, false, false, false],
       [false, true, false, false, false, false, false, false],
       [false, true, false, true, false, false, false, false],
       [true, false, true, true, false, false, false, false],
       [true, true, false, false, false, false, false, false],
       [true, true, false, true, false, false, false, false],
       [true, true, true, false, false, false, false, false],
       [true, true, true, true, false, false, false, false],
       [true, false, true, false, true, false, false, false]]

/-- The flags change only symbols 8 and above, the command only symbols 0 to 7: an inference the spec marks as its own
(41_encoder.md R95). -/
def Obligations.FlagsAndCommandAreIndependent : Prop :=
  ∀ (c : Config) (cmd cmd' : Byte) (l8 l8' l9 l9' : Bool) (stripe stripe' : BitVec 6), c.legal = true →
    stripe.toNat < 2 ^ c.stripeWidth → stripe'.toNat < 2 ^ c.stripeWidth →
    (∀ k, k ≤ 7 → symbolOf c (frameWord c cmd l8 l9 stripe) k = symbolOf c (frameWord c cmd l8' l9' stripe') k) ∧
    (∀ k, 8 ≤ k → k < frameLen c →
      symbolOf c (frameWord c cmd l8 l9 stripe) k = symbolOf c (frameWord c cmd' l8 l9 stripe) k)

/-- While a frame is in flight no request changes it, its stage durations, that is, its frame word and the
configuration, or the encoder timer (41_encoder.md section 4). -/
def Obligations.NoRequestDisturbsAFrame : Prop :=
  ∀ (q : Word) (s : State), s.rst = false → s.blk.busy = true → s.blk.init = true →
    ∃ t, serve q s = .next t ∧ s.blk.SameEncoder t.blk ∧ t.blk.now = s.blk.now ∧ t.cfg = s.cfg ∧
      (∀ i, decode q = .ok i → i = .beginLine ∨ (sendOperands i).isSome → t = s.refusedWith .busy)

/-! ### The tick -/

/-- R20: NOW counts ticks modulo the clock, returns to 0 at reset, and no request writes it. -/
def Obligations.OnlyTicksMoveTheClock : Prop :=
  ∀ s t : State, step s = .next t →
    (s.nextEvent = .tick → s.rst = false →
      t.blk.now.toNat = (s.blk.now.toNat + 1) % 2 ^ s.cfg.clockBits) ∧
    (s.nextEvent = .rst true → t.blk.now = 0) ∧
    (s.nextEvent = .rst false → t.blk.now = s.blk.now) ∧
    (∀ q, s.nextEvent = .request q → t.blk.now = s.blk.now)

/-- R86 to R91, with R85's durations: what a tick does to the block, stage by stage; nothing else of the block
changes. What becomes of the response ports over a tick: PortsAcrossTick. -/
def Obligations.TickStages : Prop :=
  ∀ (s : State) (now : Word), s.cfg.legal = true → s.rst = false → s.nextEvent = .tick →
    now = BitVec.ofNat 32 ((s.blk.now.toNat + 1) % 2 ^ s.cfg.clockBits) →
    ∃ t, step s = .next t ∧
      (s.blk.phase = .idle ∨ s.blk.phase = .done ∨ s.blk.te.finished s.cfg now = false →
        t.blk = { s.blk with now := now }) ∧
      (s.blk.te.finished s.cfg now = true →
        (s.blk.phase = .startActive → t.blk = { s.blk with
          now := now
          line := s.cfg.idleLevel
          te := { start := now, dur := s.cfg.tStartGap, alive := true }
          phase := .startGap }) ∧
        (s.blk.phase = .startGap → t.blk = { s.blk with
          now := now
          idx := 0
          line := !s.cfg.idleLevel
          te := {
            start := now
            dur := if s.blk.frame.getLsbD (9 + s.cfg.stripeWidth) then s.cfg.tLong else s.cfg.tTiny
            alive := true }
          phase := .bitActive }) ∧
        (s.blk.phase = .bitActive → t.blk = { s.blk with
          now := now
          line := s.cfg.idleLevel
          te := { start := now, dur := s.cfg.tGap, alive := true }
          phase := .bitGap }) ∧
        (s.blk.phase = .bitGap → s.blk.idx.toNat < 9 + s.cfg.stripeWidth → t.blk = { s.blk with
          now := now
          idx := s.blk.idx + 1
          line := !s.cfg.idleLevel
          te := {
            start := now
            dur := if s.blk.frame.getLsbD (8 + s.cfg.stripeWidth - s.blk.idx.toNat) then s.cfg.tLong
              else s.cfg.tTiny
            alive := true }
          phase := .bitActive }) ∧
        (s.blk.phase = .bitGap → 9 + s.cfg.stripeWidth ≤ s.blk.idx.toNat →
          t.blk = { s.blk with now := now, phase := .done, frame := 0, idx := 0 }))

/-- After a tick no stage of a frame in flight is finished, so a tick makes at most one transition: an inference the
spec marks as its own (41_encoder.md R92). -/
def Obligations.OneTransitionPerTick : Prop :=
  ∀ s t : State, s.Inv → s.rst = false → s.nextEvent = .tick → step s = .next t → t.blk.busy = true →
    t.blk.teFinished t.cfg = false ∧ t.blk.seqStep t.cfg = t.blk

/-- The only moves between phases (41_encoder.md section 1): an accepted SEND, the five tick transitions, and reset. -/
def Obligations.PhaseMoves : Prop :=
  ∀ s t : State, step s = .next t → t.blk.phase ≠ s.blk.phase →
    (s.nextEvent = .rst true ∧ t.blk.phase = .idle) ∨
    (∃ q i, s.nextEvent = .request q ∧ decode q = .ok i ∧ (sendOperands i).isSome ∧ t.rspStatus = .ok ∧
      (s.blk.phase = .idle ∨ s.blk.phase = .done) ∧ t.blk.phase = .startActive) ∨
    (s.nextEvent = .tick ∧ (s.blk.phase, t.blk.phase) ∈
      [(Phase.startActive, Phase.startGap), (.startGap, .bitActive), (.bitActive, .bitGap), (.bitGap, .bitActive),
        (.bitGap, .done)])

/-! ### Timers -/

/-- 10_state.md section 4: the fourth combination, finished and not alive, never occurs, for either timer. -/
def Obligations.NeverFinishedAndNotAlive : Prop :=
  ∀ (c : Config) (b : Block), (b.thFinished c = true → b.th.alive = true) ∧
    (b.teFinished c = true → b.te.alive = true)

/-- The timer's timeline (40_timer.md section 2: R77, and R76, an inference the spec marks as its own): `n` ticks
after any timer is armed with `d` it is finished exactly when `d` is at most `n` modulo the clock; and so is the host
timer after an accepted TSET of `d`, under any further events that neither reset the block nor are an accepted TSET,
with `n` the ticks among them. -/
def Obligations.HostTimerFinishesAtItsDuration : Prop :=
  (∀ (c : Config) (a : Word) (d : Duration) (n : Nat), c.legal = true → a.toNat < 2 ^ c.clockBits →
    (armed a d).alive = true ∧
    (armed a d).elapsed c (clockWrap c (a.toNat + n)) = n % 2 ^ c.clockBits ∧
    (armed a d).finished c (clockWrap c (a.toNat + n)) = decide (d.toNat ≤ n % 2 ^ c.clockBits)) ∧
  (∀ (s t : State) (d : BitVec 24) (es : List Event), s.cfg.legal = true → s.rst = false → 0 ≤ d.toInt →
    exec (.tset d) s = .next t → (∀ e ∈ es, e.sparesReset = true) →
    avoids Instr.isTset es.length { t with inputs := es } = true →
    ∃ u, RunsTo es.length { t with inputs := es } u ∧ u.blk.th = t.blk.th ∧ u.blk.th.alive = true ∧
      u.blk.thFinished u.cfg = decide (d.toInt ≤ (tickCount es % 2 ^ s.cfg.clockBits : Nat)))

/-- R75: no event but reset disarms a timer, and a finished timer stays finished while it is not re-armed and its
elapsed time does not wrap. -/
def Obligations.TimersAreNeverDisarmed : Prop :=
  ∀ s t : State, step s = .next t → s.nextEvent ≠ .rst true →
    (s.blk.th.alive = true → t.blk.th.alive = true) ∧ (s.blk.te.alive = true → t.blk.te.alive = true) ∧
    (t.blk.th = s.blk.th → s.blk.thFinished s.cfg = true →
      s.blk.th.elapsed s.cfg s.blk.now + 1 < 2 ^ s.cfg.clockBits → t.blk.thFinished t.cfg = true) ∧
    (t.blk.te = s.blk.te → s.blk.teFinished s.cfg = true →
      s.blk.te.elapsed s.cfg s.blk.now + 1 < 2 ^ s.cfg.clockBits → t.blk.teFinished t.cfg = true)

/-- The host timer is written by an accepted TSET, all three fields at once, and by reset, and by nothing else
(10_state.md section 4). -/
def Obligations.OnlyTsetWritesTheHostTimer : Prop :=
  ∀ s t : State, step s = .next t → t.blk.th ≠ s.blk.th →
    (s.nextEvent = .rst true ∧ t.blk.th = { start := 0, dur := 0, alive := false }) ∨
    ∃ q d, s.nextEvent = .request q ∧ decode q = .ok (.tset d) ∧ 0 ≤ d.toInt ∧
      t.blk.th = { start := s.blk.now, dur := BitVec.ofNat 23 d.toInt.toNat, alive := true }

/-- R25: INIT is 0 after reset, set by the first accepted BEGIN, cleared by nothing but reset; SEND is refused
while it is 0. -/
def Obligations.InitIsSetByBeginOnly : Prop :=
  (∀ c : Config, (State.resetWith c).blk.init = false) ∧
  (∀ s t : State, step s = .next t → t.blk.init ≠ s.blk.init →
    (s.nextEvent = .rst true ∧ t.blk.init = false) ∨
    (∃ q, s.nextEvent = .request q ∧ decode q = .ok .beginLine ∧ t.rspStatus = .ok ∧ t.blk.init = true)) ∧
  (∀ (s t : State), exec .beginLine s = .next t → t.rspStatus = .ok → t.blk.init = true) ∧
  (∀ (i : Instr) (s : State), (sendOperands i).isSome → s.blk.init = false →
    exec i s = .next (s.refusedWith .notInitialised))

/-! ### Reset and the line -/

/-- R36: every state element holds its reset value after reset, in every configuration; `State.reset` is that of REF. -/
def Obligations.ResetValues : Prop :=
  (∀ c : Config, (State.resetWith c).blk =
    { now := 0, th := { start := 0, dur := 0, alive := false }, te := { start := 0, dur := 0, alive := false },
      init := false, lineOe := false, line := c.idleLevel, phase := .idle, idx := 0, frame := 0 }) ∧
  State.reset = State.resetWith Config.ref

/-- R136: asserting rst puts every state element at its reset value whatever the state; while it is asserted the block
holds its reset values, no tick counts and no request is processed; after its release the first tick makes NOW 1 and a
request sees the reset state. What becomes of the ports and of the events: PortsAcrossReset. -/
def Obligations.ResetHoldsTheBlock : Prop :=
  (∀ s : State, s.cfg.legal = true → s.nextEvent = .rst true →
    ∃ t, step s = .next t ∧ t.rst = true ∧ t.blk = Block.reset s.cfg) ∧
  (∀ s : State, s.cfg.legal = true → s.rst = true → s.nextEvent ≠ .rst false → s.blk = Block.reset s.cfg →
    ∃ t, step s = .next t ∧ t.rst = true ∧ t.blk = Block.reset s.cfg) ∧
  (∀ s : State, s.cfg.legal = true → s.nextEvent = .rst false →
    ∃ t, step s = .next t ∧ t.rst = false ∧ t.blk = s.blk) ∧
  (∀ s t : State, s.cfg.legal = true → s.rst = false → s.blk = Block.reset s.cfg → s.nextEvent = .tick →
    step s = .next t → t.blk = { Block.reset s.cfg with now := 1 })

/-- R137: a reset during a frame ends it at once, and whatever events follow, requests, ticks and levels of rst, nothing
more of the frame is sent: until an accepted SEND the phase stays IDLE, FRAME 0 and LINE at its idle level, and until an
accepted BEGIN the line undriven. Nothing but reset stops a frame before the end of its last gap. -/
def Obligations.ResetEndsTheFrame : Prop :=
  (∀ (s t : State) (es : List Event), s.cfg.legal = true → s.nextEvent = .rst true → s.blk.busy = true →
    step s = .next t →
    t.blk.lineOe = false ∧ t.blk.phase = .idle ∧
    (avoids Instr.isSend es.length { t with inputs := es } = true →
      ∃ u, RunsTo es.length { t with inputs := es } u ∧ u.blk.phase = .idle ∧ u.blk.frame = 0 ∧
        u.blk.line = s.cfg.idleLevel ∧
        (avoids Instr.isBegin es.length { t with inputs := es } = true → u.blk.lineOe = false))) ∧
  (∀ s t : State, s.Inv → s.blk.busy = true → s.nextEvent ≠ .rst true → step s = .next t →
    t.blk.busy = true ∨
    (s.nextEvent = .tick ∧ s.blk.phase = .bitGap ∧ s.blk.idx.toNat = frameLen s.cfg - 1 ∧ t.blk.phase = .done))

/-- R40: the line port follows LINE_OE and LINE at every moment. -/
def Obligations.LinePortFollowsTheState : Prop :=
  ∀ s : State, s.lineOePort = s.blk.lineOe ∧ ∀ moment : Nat, s.blk.lineOe = true → s.wireAt moment = s.blk.line

/-! ### Invariants and whole frames -/

/-- The invariant (10_state.md section 7 and the ranges of R19, R29 and R30) is kept by every step, from every state
that meets it. -/
def Obligations.InvariantIsKept : Prop :=
  ∀ s t : State, s.Inv → step s = .next t → t.Inv

/-- The invariant holds after reset in every legal configuration, REF among them. -/
def Obligations.InvariantHoldsAtReset : Prop :=
  (∀ c : Config, c.legal = true → (State.resetWith c).Inv) ∧ State.reset.Inv

/-- The conditions (a) to (f) of 10_state.md R32, an inference the spec marks as its own, in every state reached from
reset, in every legal configuration, under every list of events. -/
def Obligations.ReachableStates : Prop :=
  ∀ (c : Config) (es : List Event) (n : Nat) (u : State), c.legal = true →
    RunsTo n { State.resetWith c with inputs := es } u →
    (u.blk.busy = true → u.blk.init = true ∧ u.blk.lineOe = true) ∧
    u.blk.init = u.blk.lineOe ∧
    (u.blk.phase = .idle ∨ u.blk.phase = .done → u.blk.line = c.idleLevel ∧ u.blk.idx = 0 ∧ u.blk.frame = 0) ∧
    (u.blk.busy = true → u.blk.te.alive = true ∧ 1 ≤ u.blk.te.dur.toNat ∧
      (u.blk.now.toNat + 2 ^ c.clockBits - u.blk.te.start.toNat) % 2 ^ c.clockBits < u.blk.te.dur.toNat) ∧
    (u.blk.line = !c.idleLevel ↔ u.blk.phase = .startActive ∨ u.blk.phase = .bitActive) ∧
    u.blk.phase.code ≠ 6 ∧ u.blk.phase.code ≠ 7

/-- The state `n` ticks after an accepted SEND, whatever else happens but a reset or, after the frame, an accepted SEND:
the whole table of the frame, an inference the spec marks as its own (41_encoder.md R93). -/
def Obligations.FrameTimeline : Prop :=
  ∀ (i : Instr) (cmd : Byte) (l8 l9 : Bool) (stripe : BitVec 6) (s t : State) (w : FrameWord)
    (es : List Event) (n : Nat),
    s.Ready → s.blk.Inv s.cfg → sendOperands i = some (cmd, l8, l9, stripe) → exec i s = .next t →
    t.rspStatus = .ok → w = frameWord s.cfg cmd l8 l9 stripe → t.LeavesFrame w es → n = tickCount es →
    ∃ u, RunsTo es.length { t with inputs := es } u ∧ u.blk.now = clockWrap s.cfg (s.blk.now.toNat + n) ∧
      u.blk.init = true ∧ u.blk.lineOe = true ∧
      (n < symbolStart s.cfg w (frameLen s.cfg) → u.blk.frame = w) ∧
      (n < s.cfg.tStartActive.toNat →
        u.blk.phase = .startActive ∧ u.blk.idx = 0 ∧ u.blk.line = activeLevel s.cfg ∧
        u.blk.te = { start := s.blk.now, dur := s.cfg.tStartActive, alive := true }) ∧
      (s.cfg.tStartActive.toNat ≤ n → n < symbolStart s.cfg w 0 →
        u.blk.phase = .startGap ∧ u.blk.idx = 0 ∧ u.blk.line = s.cfg.idleLevel ∧
        u.blk.te = {
          start := clockWrap s.cfg (s.blk.now.toNat + s.cfg.tStartActive.toNat)
          dur := s.cfg.tStartGap
          alive := true }) ∧
      (∀ k, k < frameLen s.cfg → symbolStart s.cfg w k ≤ n →
        n < symbolStart s.cfg w k + (symbolDur s.cfg w k).toNat →
        u.blk.phase = .bitActive ∧ u.blk.idx.toNat = k ∧ u.blk.line = activeLevel s.cfg ∧
        u.blk.te = {
          start := clockWrap s.cfg (s.blk.now.toNat + symbolStart s.cfg w k)
          dur := symbolDur s.cfg w k
          alive := true }) ∧
      (∀ k, k < frameLen s.cfg → symbolStart s.cfg w k + (symbolDur s.cfg w k).toNat ≤ n →
        n < symbolStart s.cfg w (k + 1) →
        u.blk.phase = .bitGap ∧ u.blk.idx.toNat = k ∧ u.blk.line = s.cfg.idleLevel ∧
        u.blk.te = {
          start := clockWrap s.cfg (s.blk.now.toNat + symbolStart s.cfg w k + (symbolDur s.cfg w k).toNat)
          dur := s.cfg.tGap
          alive := true }) ∧
      (symbolStart s.cfg w (frameLen s.cfg) ≤ n →
        u.blk.phase = .done ∧ u.blk.idx = 0 ∧ u.blk.line = s.cfg.idleLevel ∧ u.blk.frame = 0 ∧
        u.blk.te = {
          start := clockWrap s.cfg (s.blk.now.toNat + symbolStart s.cfg w (frameLen s.cfg) - s.cfg.tGap.toNat)
          dur := s.cfg.tGap
          alive := true })

/-- An inference the spec marks as its own (41_encoder.md R94): after an accepted SEND the block is busy for exactly F
ticks and DONE from then on, whatever else happens but a reset or, after the frame, an accepted SEND; F as the rule
gives it, and `36 + 2 n1` under REF. -/
def Obligations.FrameEndsAfterF : Prop :=
  (∀ (i : Instr) (cmd : Byte) (l8 l9 : Bool) (stripe : BitVec 6) (s t : State) (es : List Event),
    s.Ready → s.blk.Inv s.cfg → sendOperands i = some (cmd, l8, l9, stripe) → exec i s = .next t →
    t.rspStatus = .ok → t.LeavesFrame (frameWord s.cfg cmd l8 l9 stripe) es →
    ∃ u, RunsTo es.length { t with inputs := es } u ∧
      (tickCount es < frameTicks s.cfg (frameWord s.cfg cmd l8 l9 stripe) → u.blk.busy = true) ∧
      (frameTicks s.cfg (frameWord s.cfg cmd l8 l9 stripe) ≤ tickCount es → u.blk.phase = .done)) ∧
  (∀ w : FrameWord, w.toNat < 2 ^ 12 → frameTicks Config.ref w = 36 + 2 * frameOnes Config.ref w)

/-- An inference the spec marks as its own (10_state.md R34): two SENDs of equal operands, accepted in any two states
of one configuration, give equal waveforms relative to their issue, whatever came before and whatever each host does
meanwhile, but for a reset or, after the frame, an accepted SEND. -/
def Obligations.EqualSendsEqualWaveforms : Prop :=
  ∀ (i : Instr) (cmd : Byte) (l8 l9 : Bool) (stripe : BitVec 6) (s s' t t' : State) (es es' : List Event),
    s.Ready → s'.Ready → s.blk.Inv s.cfg → s'.blk.Inv s'.cfg → s'.cfg = s.cfg →
    sendOperands i = some (cmd, l8, l9, stripe) → exec i s = .next t → exec i s' = .next t' → t.rspStatus = .ok →
    t'.rspStatus = .ok → t.LeavesFrame (frameWord s.cfg cmd l8 l9 stripe) es →
    t'.LeavesFrame (frameWord s.cfg cmd l8 l9 stripe) es' → tickCount es' = tickCount es →
    ∃ u u', RunsTo es.length { t with inputs := es } u ∧ RunsTo es'.length { t' with inputs := es' } u' ∧
      u'.blk.line = u.blk.line ∧ u'.blk.lineOe = u.blk.lineOe ∧
      u'.blk.phase = u.blk.phase ∧ u'.blk.idx = u.blk.idx ∧ u'.blk.frame = u.blk.frame

/-- Requests that are no BEGIN and no SEND, however many and whatever their words, leave the encoder where the ticks
alone would have left it (20_memory.md section 4). -/
def Obligations.OtherTrafficLeavesTheEncoder : Prop :=
  ∀ (s : State) (es : List Event), s.cfg.legal = true → (∀ e ∈ es, e.sparesEncoder = true) →
    ∃ t u, RunsTo es.length { s with inputs := es } t ∧
      RunsTo (tickCount es) { s with inputs := List.replicate (tickCount es) .tick } u ∧
      u.blk.SameEncoder t.blk ∧ t.blk.now = u.blk.now

/-- SENDW (30_encoding.md section 8): the host's loop ends with the frame, after exactly F ticks and at most F + 1
polls. That it ends rests on ticks that keep coming (70_reset_and_hazards.md section 3): one between two polls, and
fuel for the polls, as the model writes the loop (log entry 14). When the SEND is refused it ends at once, with no
poll and no tick. -/
def Obligations.SendwEndsWithTheFrame : Prop :=
  ∀ (s : State) (cmd : Byte) (l8 l9 : Bool) (stripe : BitVec 6) (fuel : Nat), s.Ready →
    (s.blk.Inv s.cfg → s.blk.init = true → s.blk.busy = false → validCommand cmd = true →
      stripe.toNat < 2 ^ s.cfg.stripeWidth → frameTicks s.cfg (frameWord s.cfg cmd l8 l9 stripe) < fuel →
      ∃ t, sendw fuel cmd l8 l9 stripe s = .ended t ∧ t.blk.phase = .done ∧ t.blk.line = s.cfg.idleLevel ∧
        t.blk.now = clockWrap s.cfg (s.blk.now.toNat + frameTicks s.cfg (frameWord s.cfg cmd l8 l9 stripe)) ∧
        t.blk.th = s.blk.th ∧ t.rspStatus = .ok ∧ t.hostErrors = s.hostErrors ∧ t.inputs = s.inputs) ∧
    (s.blk.init = false → sendw fuel cmd l8 l9 stripe s = .ended (s.refusedWith .notInitialised)) ∧
    (s.blk.init = true → s.blk.busy = true → sendw fuel cmd l8 l9 stripe s = .ended (s.refusedWith .busy)) ∧
    (s.blk.init = true → s.blk.busy = false → validCommand cmd = false →
      sendw fuel cmd l8 l9 stripe s = .ended (s.refusedWith .invalidCommand)) ∧
    (s.blk.init = true → s.blk.busy = false → validCommand cmd = true → 2 ^ s.cfg.stripeWidth ≤ stripe.toNat →
      sendw fuel cmd l8 l9 stripe s = .ended (s.refusedWith .stripeRange))

/-- DELAY (30_encoding.md section 8): the host's loop ends after exactly `d` ticks. That it ends rests on ticks that
keep coming (70_reset_and_hazards.md section 3): one between two polls, and fuel for the polls, as the model writes
the loop (log entry 14). When the duration is negative it ends at once, with no poll and no tick. -/
def Obligations.DelayEndsAfterItsDuration : Prop :=
  ∀ (s : State) (d : BitVec 24) (fuel : Nat), s.Ready →
    (s.blk.now.toNat < 2 ^ s.cfg.clockBits → 0 ≤ d.toInt → d.toInt < fuel →
      ∃ t, delay fuel d s = .ended t ∧ t.blk.now = clockWrap s.cfg (s.blk.now.toNat + d.toInt.toNat) ∧
        t.blk.th = { start := s.blk.now, dur := BitVec.ofNat 23 d.toInt.toNat, alive := true } ∧
        t.rspStatus = .ok ∧ t.hostErrors = s.hostErrors ∧ t.inputs = s.inputs) ∧
    (d.toInt < 0 → delay fuel d s = .ended (s.refusedWith .invalidArgument))

/-- TICK n (30_encoding.md section 8) is no request: the host lets `n` ticks pass, which is a run over `n` tick
events; no response is given, the events listed stay, and with rst released NOW is `n` ticks on. That the response
ports keep their last response meanwhile is the model's choice (log entry 4), and so is where the listed events stand
(log entry 14). -/
def Obligations.TickLetsTicksPass : Prop :=
  ∀ (s : State) (n : Nat), s.cfg.legal = true →
    ∃ t, tickN n s = .ended t ∧
      RunsTo n { s with inputs := List.replicate n .tick } { t with inputs := [] } ∧
      t.inputs = s.inputs ∧ t.rspStatus = s.rspStatus ∧ t.rspData = s.rspData ∧ t.hostErrors = s.hostErrors ∧
      (s.rst = false → s.blk.now.toNat < 2 ^ s.cfg.clockBits →
        t.blk.now = clockWrap s.cfg (s.blk.now.toNat + n))

/-- The model's choices around a reset: the response ports and the host's record keep what they hold while rst is
asserted and when it is released (log entries 4 and 5), and a request or a tick that comes while it is asserted is taken
off the list and lost, a request without a response (log entry 6). -/
def Obligations.PortsAcrossReset : Prop :=
  (∀ s : State, s.cfg.legal = true → s.nextEvent = .rst true →
    step s = .next { s with inputs := s.inputs.tail, rst := true, blk := Block.reset s.cfg }) ∧
  (∀ s : State, s.cfg.legal = true → s.rst = true → s.nextEvent ≠ .rst false → s.blk = Block.reset s.cfg →
    step s = .next { s with inputs := s.inputs.tail }) ∧
  (∀ s : State, s.cfg.legal = true → s.nextEvent = .rst false →
    step s = .next { s with inputs := s.inputs.tail, rst := false })

/-- The model's choice over a tick: the response ports and the host's record keep what they hold (log entries 4 and 5),
with rst released or asserted; only the block, which TickStages gives, and the event taken may differ. -/
def Obligations.PortsAcrossTick : Prop :=
  ∀ s : State, s.cfg.legal = true → s.nextEvent = .tick →
    ∃ b : Block, step s = .next { s with inputs := s.inputs.tail, blk := b }
end

