-- ==== Sys2Proof/Laws/State.lean ====
section
/-! SUPPORT. One lemma per field per update of the state and of the block, true by rfl, so that no later proof unfolds
a record update. -/

namespace Sys2Proof.Machine

/-! `State.respond`. -/

@[simp] theorem State.respond_cfg (s : State) (e : Status) (d : Word) : (s.respond e d).cfg = s.cfg := rfl
@[simp] theorem State.respond_blk (s : State) (e : Status) (d : Word) : (s.respond e d).blk = s.blk := rfl
@[simp] theorem State.respond_rst (s : State) (e : Status) (d : Word) : (s.respond e d).rst = s.rst := rfl
@[simp] theorem State.respond_rspStatus (s : State) (e : Status) (d : Word) : (s.respond e d).rspStatus = e := rfl
@[simp] theorem State.respond_rspData (s : State) (e : Status) (d : Word) : (s.respond e d).rspData = d := rfl
@[simp] theorem State.respond_inputs (s : State) (e : Status) (d : Word) : (s.respond e d).inputs = s.inputs := rfl
@[simp] theorem State.respond_hostErrors (s : State) (e : Status) (d : Word) :
    (s.respond e d).hostErrors = if e = .ok then s.hostErrors else e :: s.hostErrors := rfl

/-! `State.raise`. -/

@[simp] theorem State.raise_cfg (s : State) (e : Status) : (s.raise e).cfg = s.cfg := rfl
@[simp] theorem State.raise_blk (s : State) (e : Status) : (s.raise e).blk = s.blk := rfl
@[simp] theorem State.raise_rst (s : State) (e : Status) : (s.raise e).rst = s.rst := rfl
@[simp] theorem State.raise_rspStatus (s : State) (e : Status) : (s.raise e).rspStatus = e := rfl
@[simp] theorem State.raise_rspData (s : State) (e : Status) : (s.raise e).rspData = 0 := rfl
@[simp] theorem State.raise_inputs (s : State) (e : Status) : (s.raise e).inputs = s.inputs := rfl
@[simp] theorem State.raise_hostErrors (s : State) (e : Status) :
    (s.raise e).hostErrors = if e = .ok then s.hostErrors else e :: s.hostErrors := rfl

/-! `State.refusedWith`. -/

@[simp] theorem State.refusedWith_cfg (s : State) (e : Status) : (s.refusedWith e).cfg = s.cfg := rfl
@[simp] theorem State.refusedWith_blk (s : State) (e : Status) : (s.refusedWith e).blk = s.blk := rfl
@[simp] theorem State.refusedWith_rst (s : State) (e : Status) : (s.refusedWith e).rst = s.rst := rfl
@[simp] theorem State.refusedWith_rspStatus (s : State) (e : Status) : (s.refusedWith e).rspStatus = e := rfl
@[simp] theorem State.refusedWith_rspData (s : State) (e : Status) : (s.refusedWith e).rspData = 0 := rfl
@[simp] theorem State.refusedWith_inputs (s : State) (e : Status) : (s.refusedWith e).inputs = s.inputs := rfl
@[simp] theorem State.refusedWith_hostErrors (s : State) (e : Status) :
    (s.refusedWith e).hostErrors = e :: s.hostErrors := rfl

/-! `State.setRst`. -/

@[simp] theorem State.setRst_cfg (s : State) (l : Level) : (s.setRst l).cfg = s.cfg := rfl
@[simp] theorem State.setRst_blk (s : State) (l : Level) :
    (s.setRst l).blk = if l then Block.reset s.cfg else s.blk := rfl
@[simp] theorem State.setRst_rst (s : State) (l : Level) : (s.setRst l).rst = l := rfl
@[simp] theorem State.setRst_rspStatus (s : State) (l : Level) : (s.setRst l).rspStatus = s.rspStatus := rfl
@[simp] theorem State.setRst_rspData (s : State) (l : Level) : (s.setRst l).rspData = s.rspData := rfl
@[simp] theorem State.setRst_inputs (s : State) (l : Level) : (s.setRst l).inputs = s.inputs := rfl
@[simp] theorem State.setRst_hostErrors (s : State) (l : Level) : (s.setRst l).hostErrors = s.hostErrors := rfl

/-! `State.takeEvent`. -/

@[simp] theorem State.takeEvent_cfg (s : State) : (s.takeEvent).cfg = s.cfg := rfl
@[simp] theorem State.takeEvent_blk (s : State) : (s.takeEvent).blk = s.blk := rfl
@[simp] theorem State.takeEvent_rst (s : State) : (s.takeEvent).rst = s.rst := rfl
@[simp] theorem State.takeEvent_rspStatus (s : State) : (s.takeEvent).rspStatus = s.rspStatus := rfl
@[simp] theorem State.takeEvent_rspData (s : State) : (s.takeEvent).rspData = s.rspData := rfl
@[simp] theorem State.takeEvent_inputs (s : State) : (s.takeEvent).inputs = s.inputs.tail := rfl
@[simp] theorem State.takeEvent_hostErrors (s : State) : (s.takeEvent).hostErrors = s.hostErrors := rfl

/-! `State.withFetchWord`. -/

@[simp] theorem State.withFetchWord_cfg (s : State) (nbits w : Nat) : (s.withFetchWord nbits w).cfg = s.cfg := rfl
@[simp] theorem State.withFetchWord_blk (s : State) (nbits w : Nat) : (s.withFetchWord nbits w).blk = s.blk := rfl
@[simp] theorem State.withFetchWord_rst (s : State) (nbits w : Nat) : (s.withFetchWord nbits w).rst = false := rfl
@[simp] theorem State.withFetchWord_rspStatus (s : State) (nbits w : Nat) :
    (s.withFetchWord nbits w).rspStatus = s.rspStatus := rfl
@[simp] theorem State.withFetchWord_rspData (s : State) (nbits w : Nat) :
    (s.withFetchWord nbits w).rspData = s.rspData := rfl
@[simp] theorem State.withFetchWord_inputs (s : State) (nbits w : Nat) :
    (s.withFetchWord nbits w).inputs = .request (tableWord nbits w) :: s.inputs := rfl
@[simp] theorem State.withFetchWord_hostErrors (s : State) (nbits w : Nat) :
    (s.withFetchWord nbits w).hostErrors = s.hostErrors := rfl

/-! `Block.armTh`. -/

@[simp] theorem Block.armTh_now (d : Duration) (b : Block) : (b.armTh d).now = b.now := rfl
@[simp] theorem Block.armTh_th (d : Duration) (b : Block) : (b.armTh d).th = armed b.now d := rfl
@[simp] theorem Block.armTh_te (d : Duration) (b : Block) : (b.armTh d).te = b.te := rfl
@[simp] theorem Block.armTh_init (d : Duration) (b : Block) : (b.armTh d).init = b.init := rfl
@[simp] theorem Block.armTh_lineOe (d : Duration) (b : Block) : (b.armTh d).lineOe = b.lineOe := rfl
@[simp] theorem Block.armTh_line (d : Duration) (b : Block) : (b.armTh d).line = b.line := rfl
@[simp] theorem Block.armTh_phase (d : Duration) (b : Block) : (b.armTh d).phase = b.phase := rfl
@[simp] theorem Block.armTh_idx (d : Duration) (b : Block) : (b.armTh d).idx = b.idx := rfl
@[simp] theorem Block.armTh_frame (d : Duration) (b : Block) : (b.armTh d).frame = b.frame := rfl

/-! `Block.armTe`. -/

@[simp] theorem Block.armTe_now (d : Duration) (b : Block) : (b.armTe d).now = b.now := rfl
@[simp] theorem Block.armTe_th (d : Duration) (b : Block) : (b.armTe d).th = b.th := rfl
@[simp] theorem Block.armTe_te (d : Duration) (b : Block) : (b.armTe d).te = armed b.now d := rfl
@[simp] theorem Block.armTe_init (d : Duration) (b : Block) : (b.armTe d).init = b.init := rfl
@[simp] theorem Block.armTe_lineOe (d : Duration) (b : Block) : (b.armTe d).lineOe = b.lineOe := rfl
@[simp] theorem Block.armTe_line (d : Duration) (b : Block) : (b.armTe d).line = b.line := rfl
@[simp] theorem Block.armTe_phase (d : Duration) (b : Block) : (b.armTe d).phase = b.phase := rfl
@[simp] theorem Block.armTe_idx (d : Duration) (b : Block) : (b.armTe d).idx = b.idx := rfl
@[simp] theorem Block.armTe_frame (d : Duration) (b : Block) : (b.armTe d).frame = b.frame := rfl

/-! `Block.initialise`. -/

@[simp] theorem Block.initialise_now (c : Config) (b : Block) : (b.initialise c).now = b.now := rfl
@[simp] theorem Block.initialise_th (c : Config) (b : Block) : (b.initialise c).th = b.th := rfl
@[simp] theorem Block.initialise_te (c : Config) (b : Block) : (b.initialise c).te = b.te := rfl
@[simp] theorem Block.initialise_init (c : Config) (b : Block) : (b.initialise c).init = true := rfl
@[simp] theorem Block.initialise_lineOe (c : Config) (b : Block) : (b.initialise c).lineOe = true := rfl
@[simp] theorem Block.initialise_line (c : Config) (b : Block) : (b.initialise c).line = c.idleLevel := rfl
@[simp] theorem Block.initialise_phase (c : Config) (b : Block) : (b.initialise c).phase = b.phase := rfl
@[simp] theorem Block.initialise_idx (c : Config) (b : Block) : (b.initialise c).idx = b.idx := rfl
@[simp] theorem Block.initialise_frame (c : Config) (b : Block) : (b.initialise c).frame = b.frame := rfl

/-! `Block.startFrame`. -/

@[simp] theorem Block.startFrame_now (c : Config) (w : FrameWord) (b : Block) : (b.startFrame c w).now = b.now := rfl
@[simp] theorem Block.startFrame_th (c : Config) (w : FrameWord) (b : Block) : (b.startFrame c w).th = b.th := rfl
@[simp] theorem Block.startFrame_te (c : Config) (w : FrameWord) (b : Block) :
    (b.startFrame c w).te = armed b.now c.tStartActive := rfl
@[simp] theorem Block.startFrame_init (c : Config) (w : FrameWord) (b : Block) :
    (b.startFrame c w).init = b.init := rfl
@[simp] theorem Block.startFrame_lineOe (c : Config) (w : FrameWord) (b : Block) :
    (b.startFrame c w).lineOe = b.lineOe := rfl
@[simp] theorem Block.startFrame_line (c : Config) (w : FrameWord) (b : Block) :
    (b.startFrame c w).line = activeLevel c := rfl
@[simp] theorem Block.startFrame_phase (c : Config) (w : FrameWord) (b : Block) :
    (b.startFrame c w).phase = .startActive := rfl
@[simp] theorem Block.startFrame_idx (c : Config) (w : FrameWord) (b : Block) : (b.startFrame c w).idx = 0 := rfl
@[simp] theorem Block.startFrame_frame (c : Config) (w : FrameWord) (b : Block) : (b.startFrame c w).frame = w := rfl

/-! `Block.countTick`. -/

@[simp] theorem Block.countTick_now (c : Config) (b : Block) :
    (b.countTick c).now = clockWrap c (b.now.toNat + 1) := rfl
@[simp] theorem Block.countTick_th (c : Config) (b : Block) : (b.countTick c).th = b.th := rfl
@[simp] theorem Block.countTick_te (c : Config) (b : Block) : (b.countTick c).te = b.te := rfl
@[simp] theorem Block.countTick_init (c : Config) (b : Block) : (b.countTick c).init = b.init := rfl
@[simp] theorem Block.countTick_lineOe (c : Config) (b : Block) : (b.countTick c).lineOe = b.lineOe := rfl
@[simp] theorem Block.countTick_line (c : Config) (b : Block) : (b.countTick c).line = b.line := rfl
@[simp] theorem Block.countTick_phase (c : Config) (b : Block) : (b.countTick c).phase = b.phase := rfl
@[simp] theorem Block.countTick_idx (c : Config) (b : Block) : (b.countTick c).idx = b.idx := rfl
@[simp] theorem Block.countTick_frame (c : Config) (b : Block) : (b.countTick c).frame = b.frame := rfl

/-! `Block.endStartPulse`. -/

@[simp] theorem Block.endStartPulse_now (c : Config) (b : Block) : (b.endStartPulse c).now = b.now := rfl
@[simp] theorem Block.endStartPulse_th (c : Config) (b : Block) : (b.endStartPulse c).th = b.th := rfl
@[simp] theorem Block.endStartPulse_te (c : Config) (b : Block) :
    (b.endStartPulse c).te = armed b.now c.tStartGap := rfl
@[simp] theorem Block.endStartPulse_init (c : Config) (b : Block) : (b.endStartPulse c).init = b.init := rfl
@[simp] theorem Block.endStartPulse_lineOe (c : Config) (b : Block) : (b.endStartPulse c).lineOe = b.lineOe := rfl
@[simp] theorem Block.endStartPulse_line (c : Config) (b : Block) : (b.endStartPulse c).line = c.idleLevel := rfl
@[simp] theorem Block.endStartPulse_phase (c : Config) (b : Block) : (b.endStartPulse c).phase = .startGap := rfl
@[simp] theorem Block.endStartPulse_idx (c : Config) (b : Block) : (b.endStartPulse c).idx = b.idx := rfl
@[simp] theorem Block.endStartPulse_frame (c : Config) (b : Block) : (b.endStartPulse c).frame = b.frame := rfl

/-! `Block.endStartGap`. -/

@[simp] theorem Block.endStartGap_now (c : Config) (b : Block) : (b.endStartGap c).now = b.now := rfl
@[simp] theorem Block.endStartGap_th (c : Config) (b : Block) : (b.endStartGap c).th = b.th := rfl
@[simp] theorem Block.endStartGap_te (c : Config) (b : Block) :
    (b.endStartGap c).te = armed b.now (symbolDur c b.frame 0) := rfl
@[simp] theorem Block.endStartGap_init (c : Config) (b : Block) : (b.endStartGap c).init = b.init := rfl
@[simp] theorem Block.endStartGap_lineOe (c : Config) (b : Block) : (b.endStartGap c).lineOe = b.lineOe := rfl
@[simp] theorem Block.endStartGap_line (c : Config) (b : Block) : (b.endStartGap c).line = activeLevel c := rfl
@[simp] theorem Block.endStartGap_phase (c : Config) (b : Block) : (b.endStartGap c).phase = .bitActive := rfl
@[simp] theorem Block.endStartGap_idx (c : Config) (b : Block) : (b.endStartGap c).idx = 0 := rfl
@[simp] theorem Block.endStartGap_frame (c : Config) (b : Block) : (b.endStartGap c).frame = b.frame := rfl

/-! `Block.endPulse`. -/

@[simp] theorem Block.endPulse_now (c : Config) (b : Block) : (b.endPulse c).now = b.now := rfl
@[simp] theorem Block.endPulse_th (c : Config) (b : Block) : (b.endPulse c).th = b.th := rfl
@[simp] theorem Block.endPulse_te (c : Config) (b : Block) : (b.endPulse c).te = armed b.now c.tGap := rfl
@[simp] theorem Block.endPulse_init (c : Config) (b : Block) : (b.endPulse c).init = b.init := rfl
@[simp] theorem Block.endPulse_lineOe (c : Config) (b : Block) : (b.endPulse c).lineOe = b.lineOe := rfl
@[simp] theorem Block.endPulse_line (c : Config) (b : Block) : (b.endPulse c).line = c.idleLevel := rfl
@[simp] theorem Block.endPulse_phase (c : Config) (b : Block) : (b.endPulse c).phase = .bitGap := rfl
@[simp] theorem Block.endPulse_idx (c : Config) (b : Block) : (b.endPulse c).idx = b.idx := rfl
@[simp] theorem Block.endPulse_frame (c : Config) (b : Block) : (b.endPulse c).frame = b.frame := rfl

/-! `Block.nextSymbol`. -/

@[simp] theorem Block.nextSymbol_now (c : Config) (b : Block) : (b.nextSymbol c).now = b.now := rfl
@[simp] theorem Block.nextSymbol_th (c : Config) (b : Block) : (b.nextSymbol c).th = b.th := rfl
@[simp] theorem Block.nextSymbol_te (c : Config) (b : Block) :
    (b.nextSymbol c).te = armed b.now (symbolDur c b.frame (b.idx.toNat + 1)) := rfl
@[simp] theorem Block.nextSymbol_init (c : Config) (b : Block) : (b.nextSymbol c).init = b.init := rfl
@[simp] theorem Block.nextSymbol_lineOe (c : Config) (b : Block) : (b.nextSymbol c).lineOe = b.lineOe := rfl
@[simp] theorem Block.nextSymbol_line (c : Config) (b : Block) : (b.nextSymbol c).line = activeLevel c := rfl
@[simp] theorem Block.nextSymbol_phase (c : Config) (b : Block) : (b.nextSymbol c).phase = .bitActive := rfl
@[simp] theorem Block.nextSymbol_idx (c : Config) (b : Block) : (b.nextSymbol c).idx = b.idx + 1 := rfl
@[simp] theorem Block.nextSymbol_frame (c : Config) (b : Block) : (b.nextSymbol c).frame = b.frame := rfl

/-! `Block.endFrame`. -/

@[simp] theorem Block.endFrame_now (b : Block) : (b.endFrame).now = b.now := rfl
@[simp] theorem Block.endFrame_th (b : Block) : (b.endFrame).th = b.th := rfl
@[simp] theorem Block.endFrame_te (b : Block) : (b.endFrame).te = b.te := rfl
@[simp] theorem Block.endFrame_init (b : Block) : (b.endFrame).init = b.init := rfl
@[simp] theorem Block.endFrame_lineOe (b : Block) : (b.endFrame).lineOe = b.lineOe := rfl
@[simp] theorem Block.endFrame_line (b : Block) : (b.endFrame).line = b.line := rfl
@[simp] theorem Block.endFrame_phase (b : Block) : (b.endFrame).phase = .done := rfl
@[simp] theorem Block.endFrame_idx (b : Block) : (b.endFrame).idx = 0 := rfl
@[simp] theorem Block.endFrame_frame (b : Block) : (b.endFrame).frame = 0 := rfl

/-! `armed` and the reset values. -/

@[simp] theorem armed_start (now : Word) (d : Duration) : (armed now d).start = now := rfl
@[simp] theorem armed_dur (now : Word) (d : Duration) : (armed now d).dur = d := rfl
@[simp] theorem armed_alive (now : Word) (d : Duration) : (armed now d).alive = true := rfl
@[simp] theorem Timer.inert_start : Timer.inert.start = 0 := rfl
@[simp] theorem Timer.inert_dur : Timer.inert.dur = 0 := rfl
@[simp] theorem Timer.inert_alive : Timer.inert.alive = false := rfl
@[simp] theorem Block.reset_now (c : Config) : (Block.reset c).now = 0 := rfl
@[simp] theorem Block.reset_th (c : Config) : (Block.reset c).th = .inert := rfl
@[simp] theorem Block.reset_te (c : Config) : (Block.reset c).te = .inert := rfl
@[simp] theorem Block.reset_init (c : Config) : (Block.reset c).init = false := rfl
@[simp] theorem Block.reset_lineOe (c : Config) : (Block.reset c).lineOe = false := rfl
@[simp] theorem Block.reset_line (c : Config) : (Block.reset c).line = c.idleLevel := rfl
@[simp] theorem Block.reset_phase (c : Config) : (Block.reset c).phase = .idle := rfl
@[simp] theorem Block.reset_idx (c : Config) : (Block.reset c).idx = 0 := rfl
@[simp] theorem Block.reset_frame (c : Config) : (Block.reset c).frame = 0 := rfl
@[simp] theorem State.resetWith_cfg (c : Config) : (State.resetWith c).cfg = c := rfl
@[simp] theorem State.resetWith_blk (c : Config) : (State.resetWith c).blk = .reset c := rfl
@[simp] theorem State.resetWith_rst (c : Config) : (State.resetWith c).rst = false := rfl
@[simp] theorem State.resetWith_rspStatus (c : Config) : (State.resetWith c).rspStatus = .ok := rfl
@[simp] theorem State.resetWith_rspData (c : Config) : (State.resetWith c).rspData = 0 := rfl
@[simp] theorem State.resetWith_inputs (c : Config) : (State.resetWith c).inputs = [] := rfl
@[simp] theorem State.resetWith_hostErrors (c : Config) : (State.resetWith c).hostErrors = [] := rfl

end Sys2Proof.Machine
end

