-- ==== Sys2Proof/Laws/Clock.lean ====
section
/-! SUPPORT. Lemmas on the legal configurations, on the clock's modulus (10_state.md R20) and on elapsed time
(40_timer.md R73). -/

namespace Sys2Proof.Machine

/-- What a legal configuration says, as numbers. -/
theorem legal_bounds {c : Config} (h : c.legal = true) :
    (1 ≤ c.stripeWidth ∧ c.stripeWidth ≤ 6) ∧ (24 ≤ c.clockBits ∧ c.clockBits ≤ 32) ∧
    (1 ≤ c.tStartActive.toNat ∧ 1 ≤ c.tStartGap.toNat ∧ 1 ≤ c.tTiny.toNat ∧ 1 ≤ c.tLong.toNat ∧
      1 ≤ c.tGap.toNat) ∧
    c.tTiny.toNat < c.tLong.toNat := by
  simp only [Config.legal, Bool.and_eq_true, decide_eq_true_eq] at h
  exact ⟨h.1.1.1.1, h.1.1.1.2, h.1.1.2, h.1.2⟩

theorem frameLen_le {c : Config} (h : c.legal = true) : 11 ≤ frameLen c ∧ frameLen c ≤ 16 := by
  have := (legal_bounds h).1
  unfold frameLen
  omega

theorem clock_dvd {c : Config} (h : c.legal = true) : 2 ^ c.clockBits ∣ 2 ^ 32 :=
  Nat.pow_dvd_pow 2 (legal_bounds h).2.1.2

theorem clock_le {c : Config} (h : c.legal = true) : 2 ^ c.clockBits ≤ 2 ^ 32 :=
  Nat.pow_le_pow_right (by decide) (legal_bounds h).2.1.2

/-- The clock's period is longer than the longest duration. -/
theorem le_clock {c : Config} (h : c.legal = true) : 2 ^ 24 ≤ 2 ^ c.clockBits :=
  Nat.pow_le_pow_right (by decide) (legal_bounds h).2.1.1

theorem clockWrap_toNat {c : Config} (h : c.legal = true) (n : Nat) :
    (clockWrap c n).toNat = n % 2 ^ c.clockBits := by
  have := clock_le h
  have hn : n % 2 ^ c.clockBits < 2 ^ c.clockBits := Nat.mod_lt _ (Nat.pow_pos (by decide))
  simp only [clockWrap, BitVec.toNat_ofNat]
  exact Nat.mod_eq_of_lt (by omega)

theorem clockWrap_of_fits {c : Config} {x : Word} (h : x.toNat < 2 ^ c.clockBits) : clockWrap c x.toNat = x := by
  unfold clockWrap
  rw [Nat.mod_eq_of_lt h]
  simp

theorem clockWrap_succ {c : Config} (h : c.legal = true) (n : Nat) :
    clockWrap c ((clockWrap c n).toNat + 1) = clockWrap c (n + 1) := by
  apply BitVec.eq_of_toNat_eq
  rw [clockWrap_toNat h, clockWrap_toNat h, clockWrap_toNat h, Nat.mod_add_mod]

theorem elapsed_lt (c : Config) (now : Word) (t : Timer) : t.elapsed c now < 2 ^ c.clockBits :=
  Nat.mod_lt _ (Nat.pow_pos (by decide))

@[simp] theorem elapsed_armed (c : Config) (now : Word) (d : Duration) : (armed now d).elapsed c now = 0 := by
  simp [Timer.elapsed]

/-- Elapsed time in numbers, for a start that fits the clock. -/
theorem elapsed_eq {c : Config} (h : c.legal = true) (now : Word) (t : Timer)
    (hs : t.start.toNat < 2 ^ c.clockBits) :
    t.elapsed c now = (now.toNat + 2 ^ c.clockBits - t.start.toNat) % 2 ^ c.clockBits := by
  obtain ⟨k, hk⟩ := clock_dvd h
  have hle := clock_le h
  have := t.start.isLt
  unfold Timer.elapsed
  rw [BitVec.toNat_sub, Nat.mod_mod_of_dvd _ (clock_dvd h)]
  generalize hM : 2 ^ c.clockBits = M at *
  have hk1 : 1 ≤ k := by rcases k with _ | k <;> omega
  obtain ⟨k, rfl⟩ := Nat.exists_eq_add_of_le hk1
  have e : M * (1 + k) = M + M * k := by ring
  rw [hk, e]
  have : M + M * k - t.start.toNat + now.toNat = (now.toNat + M - t.start.toNat) + M * k := by omega
  rw [this, Nat.add_mul_mod_self_left]

/-- One tick adds one to the elapsed time, modulo the clock. -/
theorem elapsed_tick {c : Config} (h : c.legal = true) (now : Word) (t : Timer) :
    t.elapsed c (clockWrap c (now.toNat + 1)) = (t.elapsed c now + 1) % 2 ^ c.clockBits := by
  unfold Timer.elapsed
  rw [BitVec.toNat_sub, BitVec.toNat_sub, Nat.mod_mod_of_dvd _ (clock_dvd h), clockWrap_toNat h,
    Nat.mod_mod_of_dvd _ (clock_dvd h)]
  rw [Nat.add_mod_mod, Nat.mod_add_mod, Nat.add_assoc]

/-- `j` ticks after it is armed a timer's elapsed time is `j`, while `j` is below the clock's period. -/
theorem elapsed_after {c : Config} (h : c.legal = true) (a j : Nat) (hj : j < 2 ^ c.clockBits) (d : Duration)
    (al : Bool) :
    Timer.elapsed c (clockWrap c (a + j)) { start := clockWrap c a, dur := d, alive := al } = j := by
  have hp : 0 < 2 ^ c.clockBits := Nat.pow_pos (by decide)
  rw [elapsed_eq h _ _ (by rw [clockWrap_toNat h]; exact Nat.mod_lt _ hp)]
  simp only [clockWrap_toNat h]
  have e : (a + j) % 2 ^ c.clockBits = (a % 2 ^ c.clockBits + j) % 2 ^ c.clockBits := by rw [Nat.mod_add_mod]
  have hr := Nat.mod_lt a hp
  rw [e]
  generalize a % 2 ^ c.clockBits = r at *
  generalize 2 ^ c.clockBits = M at *
  by_cases hh : r + j < M
  · rw [Nat.mod_eq_of_lt hh, show r + j + M - r = j + M by omega, Nat.add_mod_right, Nat.mod_eq_of_lt hj]
  · have e1 : (r + j) % M = r + j - M := by
      rw [Nat.mod_eq_sub_mod (show M ≤ r + j by omega), Nat.mod_eq_of_lt (show r + j - M < M by omega)]
    rw [e1, show r + j - M + M - r = j by omega, Nat.mod_eq_of_lt hj]

/-- Every symbol's duration is at least one tick. -/
theorem one_le_symbolDur {c : Config} (h : c.legal = true) (w : FrameWord) (k : Nat) :
    1 ≤ (symbolDur c w k).toNat := by
  have := (legal_bounds h).2.2.1
  unfold symbolDur
  split <;> omega

/-- The duration a nonnegative TSET operand stands for is that number. -/
theorem durationOf_toNat {d : BitVec 24} (h : 0 ≤ d.toInt) : (durationOf d).toNat = d.toInt.toNat := by
  rw [BitVec.toInt_eq_toNat_cond] at *
  have := d.isLt
  simp only [durationOf, BitVec.toNat_setWidth]
  split at h <;> omega

end Sys2Proof.Machine
end

