-- ==== Sys2Proof/Laws/Encoding.lean ====
section
/-! SUPPORT. Lemmas on the bit fields of request words, on the formats (30_encoding.md R55 to R58) and on the command
table (R62). -/

namespace Sys2Proof.Machine

/-! ### Fields as numbers -/

theorem toNat_field (q : Word) (lo w : Nat) : (q.extractLsb' lo w).toNat = q.toNat / 2 ^ lo % 2 ^ w := by
  simp [BitVec.extractLsb'_toNat, Nat.shiftRight_eq_div_pow]

theorem opcode_toNat (q : Word) : (q.extractLsb' 28 4).toNat = q.toNat / 2 ^ 28 := by
  rw [toNat_field]
  have := q.isLt
  omega

theorem field_eq_zero_iff (q : Word) (lo w : Nat) : q.extractLsb' lo w = 0 ↔ q.toNat / 2 ^ lo % 2 ^ w = 0 := by
  rw [← toNat_field, ← BitVec.toNat_inj]
  simp

theorem field_eq_ofNat (q : Word) (lo w : Nat) : q.extractLsb' lo w = BitVec.ofNat w (q.toNat / 2 ^ lo) := by
  apply BitVec.eq_of_toNat_eq
  rw [toNat_field]
  simp

theorem getLsbD_eq_decide (q : Word) (i : Nat) : q.getLsbD i = decide (q.toNat / 2 ^ i % 2 = 1) := by
  rcases Nat.mod_two_eq_zero_or_one (q.toNat / 2 ^ i) with h | h <;>
    simp [BitVec.getLsbD, Nat.testBit, Nat.shiftRight_eq_div_pow, h]

/-! ### The formats -/

theorem formatN_toNat (op : Nat) (h : op < 16) : (formatN op).toNat = op * 2 ^ 28 := by
  simp only [formatN, requestWord, BitVec.toNat_ofNat]
  omega

theorem formatS_toNat (cmd : Byte) (l8 l9 : Bool) (stripe : BitVec 6) : (formatS cmd l8 l9 stripe).toNat =
    2 * 2 ^ 28 + (stripe.toNat * 2 ^ 10 + l9.toNat * 2 ^ 9 + l8.toNat * 2 ^ 8 + cmd.toNat) := by
  have := stripe.isLt
  have := cmd.isLt
  have := Bool.toNat_lt l8
  have := Bool.toNat_lt l9
  simp only [formatS, requestWord, BitVec.toNat_ofNat]
  omega

theorem formatD_toNat (d : BitVec 24) : (formatD d).toNat = 3 * 2 ^ 28 + d.toNat := by
  have := d.isLt
  simp only [formatD, requestWord, BitVec.toNat_ofNat]
  omega

theorem formatR_toNat (sel : BitVec 4) : (formatR sel).toNat = 6 * 2 ^ 28 + sel.toNat := by
  have := sel.isLt
  simp only [formatR, requestWord, BitVec.toNat_ofNat]
  omega

/-- A SEND word reads as the SEND of its operands. -/
theorem decode_formatS (cmd : Byte) (l8 l9 : Bool) (stripe : BitVec 6) :
    decode (formatS cmd l8 l9 stripe) = .ok (readSend cmd l8 l9 stripe) := by
  have h0 := formatS_toNat cmd l8 l9 stripe
  have := stripe.isLt
  have := cmd.isLt
  have := Bool.toNat_lt l8
  have := Bool.toNat_lt l9
  have hop : (formatS cmd l8 l9 stripe).toNat / 2 ^ 28 = 2 := by omega
  simp only [decode, opcode_toNat, hop, readFormatS, field_eq_zero_iff]
  rw [if_pos (by omega)]
  congr 2
  · apply BitVec.eq_of_toNat_eq
    rw [toNat_field]
    omega
  · rw [getLsbD_eq_decide]
    cases l8 <;> simp at * <;> omega
  · rw [getLsbD_eq_decide]
    cases l9 <;> simp at * <;> omega
  · apply BitVec.eq_of_toNat_eq
    rw [toNat_field]
    omega

/-- A TSET word reads as the TSET of its operand. -/
theorem decode_formatD (d : BitVec 24) : decode (formatD d) = .ok (.tset d) := by
  have := d.isLt
  have h0 := formatD_toNat d
  have hop : (formatD d).toNat / 2 ^ 28 = 3 := by omega
  simp only [decode, opcode_toNat, hop, readFormatD, field_eq_zero_iff]
  rw [if_pos (by omega)]
  congr 2
  apply BitVec.eq_of_toNat_eq
  rw [toNat_field]
  omega

/-! ### The command table and the views -/

@[simp] theorem commandOf_commandByte (k : Command) : commandOf (commandByte k) = some k := by
  cases k <;> decide

theorem commandByte_of_commandOf {b : Byte} {k : Command} (h : commandOf b = some k) : commandByte k = b := by
  simpa using List.find?_some h

@[simp] theorem validCommand_commandByte (k : Command) : validCommand (commandByte k) = true := by
  simp [validCommand]

@[simp] theorem readSend_commandByte (k : Command) (l8 l9 : Bool) (stripe : BitVec 6) :
    readSend (commandByte k) l8 l9 stripe = sendOf k l8 l9 stripe := by
  simp [readSend]

/-- Whichever constructor a SEND word is read as, it carries the word's operands. -/
@[simp] theorem sendOperands_readSend (cmd : Byte) (l8 l9 : Bool) (stripe : BitVec 6) :
    sendOperands (readSend cmd l8 l9 stripe) = some (cmd, l8, l9, stripe) := by
  unfold readSend
  cases h : commandOf cmd with
  | none => rfl
  | some k =>
    have := commandByte_of_commandOf h
    subst this
    cases k <;> rfl

theorem selOf_of_viewOf {x : BitVec 4} {v : View} (h : viewOf x = some v) : selOf v = x := by
  have key : ∀ x, ∀ v ∈ viewOf x, selOf v = x := by decide
  exact key x v h

theorem viewOf_isSome (x : BitVec 4) : (viewOf x).isSome = decide (x.toNat ≤ 10) := by
  revert x
  decide

end Sys2Proof.Machine
end

