-- ==== Sys2Proof/Laws/Ops.lean ====
section
/-! SUPPORT. One lemma per shared operation that says once everything it can do: raising an error, SEND, a tick, any
request, one step. -/

namespace Sys2Proof.Machine

/-- Raising an error changes the response and the host's record, nothing else. -/
theorem raise_eq_refusedWith (s : State) {e : Status} (he : e ≠ .ok) : s.raise e = s.refusedWith e := by
  simp [State.raise, State.respond, State.refusedWith, he]

/-- An OK response. -/
theorem respond_ok (s : State) (d : Word) : s.respond .ok d = { s with rspStatus := .ok, rspData := d } := by
  simp [State.respond]

/-- Every constructor that carries a SEND runs the one SEND operation. -/
theorem exec_of_sendOperands {i : Instr} {cmd : Byte} {l8 l9 : Bool} {stripe : BitVec 6}
    (h : sendOperands i = some (cmd, l8, l9, stripe)) (s : State) : exec i s = sendRequest cmd l8 l9 stripe s := by
  cases i <;> simp [sendOperands] at h <;> obtain ⟨rfl, rfl, rfl, rfl⟩ := h <;> rfl

/-- Everything SEND can do: four refusals in their order, or the frame. -/
theorem sendRequest_cases (cmd : Byte) (l8 l9 : Bool) (stripe : BitVec 6) (s : State) :
    (s.blk.init = false ∧ sendRequest cmd l8 l9 stripe s = .next (s.refusedWith .notInitialised)) ∨
    (s.blk.init = true ∧ s.blk.busy = true ∧ sendRequest cmd l8 l9 stripe s = .next (s.refusedWith .busy)) ∨
    (s.blk.init = true ∧ s.blk.busy = false ∧ validCommand cmd = false ∧
      sendRequest cmd l8 l9 stripe s = .next (s.refusedWith .invalidCommand)) ∨
    (s.blk.init = true ∧ s.blk.busy = false ∧ validCommand cmd = true ∧ stripeFits s.cfg stripe = false ∧
      sendRequest cmd l8 l9 stripe s = .next (s.refusedWith .stripeRange)) ∨
    (s.blk.init = true ∧ s.blk.busy = false ∧ validCommand cmd = true ∧ stripeFits s.cfg stripe = true ∧
      sendRequest cmd l8 l9 stripe s = .next { s with
        blk := s.blk.startFrame s.cfg (frameWord s.cfg cmd l8 l9 stripe)
        rspStatus := .ok
        rspData := 0 }) := by
  unfold sendRequest
  cases s.blk.init <;> cases s.blk.busy <;> cases validCommand cmd <;> cases stripeFits s.cfg stripe <;>
    simp [raise_eq_refusedWith, respond_ok]

/-- Everything any request can do to the block: nothing, an accepted BEGIN, an accepted TSET, an accepted SEND; and the
ports it never touches. -/
theorem exec_cases {i : Instr} {s t : State} (h : exec i s = .next t) :
    t.cfg = s.cfg ∧ t.inputs = s.inputs ∧ t.rst = s.rst ∧
    (t.blk = s.blk ∨
     (i = .beginLine ∧ s.blk.busy = false ∧ t.rspStatus = .ok ∧ t.blk = s.blk.initialise s.cfg) ∨
     (∃ d, i = .tset d ∧ 0 ≤ d.toInt ∧ t.rspStatus = .ok ∧ t.blk = s.blk.armTh (durationOf d)) ∨
     (∃ cmd l8 l9 stripe, sendOperands i = some (cmd, l8, l9, stripe) ∧ s.blk.init = true ∧ s.blk.busy = false ∧
       validCommand cmd = true ∧ stripeFits s.cfg stripe = true ∧ t.rspStatus = .ok ∧
       t.blk = s.blk.startFrame s.cfg (frameWord s.cfg cmd l8 l9 stripe))) := by
  by_cases hi : (sendOperands i).isSome
  · obtain ⟨⟨cmd, l8, l9, stripe⟩, hi'⟩ := Option.isSome_iff_exists.1 hi
    rw [exec_of_sendOperands hi'] at h
    rcases sendRequest_cases cmd l8 l9 stripe s with
      ⟨-, e⟩ | ⟨-, -, e⟩ | ⟨-, -, -, e⟩ | ⟨-, -, -, -, e⟩ | ⟨a, b, c, d, e⟩ <;> rw [e] at h <;> cases h
    · exact ⟨rfl, rfl, rfl, .inl rfl⟩
    · exact ⟨rfl, rfl, rfl, .inl rfl⟩
    · exact ⟨rfl, rfl, rfl, .inl rfl⟩
    · exact ⟨rfl, rfl, rfl, .inl rfl⟩
    · exact ⟨rfl, rfl, rfl, .inr (.inr (.inr ⟨_, _, _, _, hi', a, b, c, d, rfl, rfl⟩))⟩
  · cases i <;> simp [sendOperands] at hi
    case beginLine =>
      simp only [exec, execBegin] at h
      split at h
      · cases h
        exact ⟨rfl, rfl, rfl, .inl rfl⟩
      · rename_i hb
        cases h
        exact ⟨rfl, rfl, rfl, .inr (.inl ⟨rfl, by simpa using hb, rfl, rfl⟩)⟩
    case tset d =>
      simp only [exec, execTset] at h
      split at h
      · cases h
        exact ⟨rfl, rfl, rfl, .inl rfl⟩
      · rename_i hd
        cases h
        exact ⟨rfl, rfl, rfl, .inr (.inr (.inl ⟨d, rfl, by simpa [durationNegative] using hd, rfl, rfl⟩))⟩
    all_goals
      cases h
      exact ⟨rfl, rfl, rfl, .inl rfl⟩

/-- Everything a tick can do: count, and at most one stage transition. -/
theorem tick_cases (c : Config) (b : Block) :
    (b.busy = false ∧ b.tick c = b.countTick c) ∨
    (b.busy = true ∧ (b.countTick c).teFinished c = false ∧ b.tick c = b.countTick c) ∨
    (b.busy = true ∧ (b.countTick c).teFinished c = true ∧ b.tick c = (b.countTick c).nextStage c) := by
  have hb : (b.countTick c).busy = b.busy := rfl
  unfold Block.tick Block.seqStep
  rw [hb]
  cases b.busy <;> simp
  cases (b.countTick c).teFinished c <;> simp

/-- Everything a stage transition can be. -/
theorem nextStage_cases (c : Config) (b : Block) :
    (b.phase = .startActive ∧ b.nextStage c = b.endStartPulse c) ∨
    (b.phase = .startGap ∧ b.nextStage c = b.endStartGap c) ∨
    (b.phase = .bitActive ∧ b.nextStage c = b.endPulse c) ∨
    (b.phase = .bitGap ∧ b.idx.toNat < frameLen c - 1 ∧ b.nextStage c = b.nextSymbol c) ∨
    (b.phase = .bitGap ∧ frameLen c - 1 ≤ b.idx.toNat ∧ b.nextStage c = b.endFrame) ∨
    (b.busy = false ∧ b.nextStage c = b) := by
  unfold Block.nextStage Block.busy
  cases hp : b.phase
  case bitGap =>
    by_cases h : b.idx.toNat < frameLen c - 1
    · exact .inr (.inr (.inr (.inl ⟨rfl, h, if_pos h⟩)))
    · exact .inr (.inr (.inr (.inr (.inl ⟨rfl, by omega, if_neg h⟩))))
  all_goals simp [Phase.busy]

/-- A stage transition leaves NOW, the host timer, INIT and LINE_OE alone. -/
theorem nextStage_frame (c : Config) (b : Block) :
    (b.nextStage c).now = b.now ∧ (b.nextStage c).th = b.th ∧ (b.nextStage c).init = b.init ∧
    (b.nextStage c).lineOe = b.lineOe := by
  rcases nextStage_cases c b with ⟨-, h⟩ | ⟨-, h⟩ | ⟨-, h⟩ | ⟨-, -, h⟩ | ⟨-, -, h⟩ | ⟨-, h⟩ <;> rw [h] <;>
    exact ⟨rfl, rfl, rfl, rfl⟩

/-- A tick counts NOW and leaves the host timer, INIT and LINE_OE alone. -/
theorem tick_frame (c : Config) (b : Block) :
    (b.tick c).now = clockWrap c (b.now.toNat + 1) ∧ (b.tick c).th = b.th ∧ (b.tick c).init = b.init ∧
    (b.tick c).lineOe = b.lineOe := by
  rcases tick_cases c b with ⟨-, h⟩ | ⟨-, -, h⟩ | ⟨-, -, h⟩
  · rw [h]
    exact ⟨rfl, rfl, rfl, rfl⟩
  · rw [h]
    exact ⟨rfl, rfl, rfl, rfl⟩
  · rw [h]
    exact nextStage_frame c (b.countTick c)

/-- A step whose next event is a tick, rst released. -/
theorem step_tick {s : State} (hl : s.cfg.legal = true) (hr : s.rst = false) (he : s.nextEvent = .tick) :
    step s = .next { s with inputs := s.inputs.tail, blk := s.blk.tick s.cfg } := by
  simp [step, hl, runEvent, he, State.tick, State.takeEvent, hr]

/-- Everything a step can do: a level of rst, a tick, a request that changes no state element, or a request executed. -/
theorem step_cases {s t : State} (h : step s = .next t) :
    s.cfg.legal = true ∧ t.cfg = s.cfg ∧ t.inputs = s.inputs.tail ∧
    ((∃ l, s.nextEvent = .rst l ∧ t.rst = l ∧ t.blk = if l then Block.reset s.cfg else s.blk) ∨
     (s.nextEvent = .tick ∧ t.rst = s.rst ∧ t.blk = if s.rst then s.blk else s.blk.tick s.cfg) ∨
     (∃ q, s.nextEvent = .request q ∧ t.rst = s.rst ∧
       (t.blk = s.blk ∨ (s.rst = false ∧ ∃ i, decode q = .ok i ∧ exec i s.takeEvent = .next t)))) := by
  unfold step at h
  split at h
  case isFalse => cases h
  case isTrue hl =>
    refine ⟨hl, ?_⟩
    unfold runEvent at h
    split at h
    · rename_i q he
      unfold serve at h
      split at h
      · cases h
        exact ⟨rfl, rfl, .inr (.inr ⟨q, he, rfl, .inl rfl⟩)⟩
      · rename_i hr
        split at h
        · rename_i i hd
          obtain ⟨a, b, c, -⟩ := exec_cases h
          exact ⟨a, b, .inr (.inr ⟨q, he, c, .inr ⟨by simpa using hr, i, hd, h⟩⟩)⟩
        · cases h
          exact ⟨rfl, rfl, .inr (.inr ⟨q, he, rfl, .inl rfl⟩)⟩
    · rename_i he
      cases h
      by_cases hr : s.rst = true
      · simp [State.tick, State.takeEvent, hr, he]
      · simp only [Bool.not_eq_true] at hr
        simp [State.tick, State.takeEvent, hr, he]
    · rename_i l he
      cases h
      exact ⟨rfl, rfl, .inl ⟨l, he, rfl, rfl⟩⟩

end Sys2Proof.Machine
end

