-- ==== Sys2Proof/Laws/PerInstr.lean ====
section
/-! SUPPORT. The per-instruction family OpcodeRow: the word a request is encoded to holds the bits that its row of
spec/opcode_table.json fixes, whatever the operands. -/

namespace Sys2Proof.Laws.OpcodeRow

open Sys2Proof Sys2Proof.Machine

/-- A fixed field of a row: its lowest bit, its width and its value. -/
structure Fixed where
  lo : Nat
  width : Nat
  value : Nat
  deriving DecidableEq, Repr

/-- The fixed fields of each instruction's row; a SEND.<command> row fixes the CMD operand of a SEND word. -/
def fixedFields : Instr → List Fixed
  | .nop => [⟨0, 32, 0x00000000⟩]
  | .beginLine => [⟨0, 32, 0x10000000⟩]
  | .send _ _ _ _ => [⟨16, 16, 0x2000⟩]
  | .tset _ => [⟨24, 8, 0x30⟩]
  | .tfin => [⟨0, 32, 0x40000000⟩]
  | .talive => [⟨0, 32, 0x50000000⟩]
  | .rdstate _ => [⟨4, 28, 0x6000000⟩]
  | .sendOn _ _ _ => [⟨16, 16, 0x2000⟩, ⟨0, 8, 0xa0⟩]
  | .sendOnVib _ _ _ => [⟨16, 16, 0x2000⟩, ⟨0, 8, 0x30⟩]
  | .sendOnVibShock _ _ _ => [⟨16, 16, 0x2000⟩, ⟨0, 8, 0x20⟩]
  | .sendCalib _ _ _ => [⟨16, 16, 0x2000⟩, ⟨0, 8, 0x80⟩]
  | .sendCalibFinished _ _ _ => [⟨16, 16, 0x2000⟩, ⟨0, 8, 0x90⟩]
  | .sendMeasure _ _ _ => [⟨16, 16, 0x2000⟩, ⟨0, 8, 0x10⟩]
  | .sendMeasureFinOk _ _ _ => [⟨16, 16, 0x2000⟩, ⟨0, 8, 0x00⟩]
  | .sendMeasureFinShock _ _ _ => [⟨16, 16, 0x2000⟩, ⟨0, 8, 0x60⟩]
  | .sendMeasureFinVib _ _ _ => [⟨16, 16, 0x2000⟩, ⟨0, 8, 0x70⟩]
  | .sendBeep _ _ _ => [⟨16, 16, 0x2000⟩, ⟨0, 8, 0x40⟩]
  | .sendE1 _ _ _ => [⟨16, 16, 0x2000⟩, ⟨0, 8, 0x50⟩]
  | .sendE2 _ _ _ => [⟨16, 16, 0x2000⟩, ⟨0, 8, 0xb0⟩]
  | .sendE3 _ _ _ => [⟨16, 16, 0x2000⟩, ⟨0, 8, 0xc0⟩]
  | .sendE4 _ _ _ => [⟨16, 16, 0x2000⟩, ⟨0, 8, 0xd0⟩]
  | .sendE5 _ _ _ => [⟨16, 16, 0x2000⟩, ⟨0, 8, 0xe0⟩]
  | .sendE6 _ _ _ => [⟨16, 16, 0x2000⟩, ⟨0, 8, 0xf0⟩]
  | .sendE7 _ _ _ => [⟨16, 16, 0x2000⟩, ⟨0, 8, 0xa8⟩]

/-- The word of `i` holds its row's fixed fields. -/
def Statement (i : Instr) : Prop :=
  ∀ f ∈ fixedFields i, (encode i).toNat / 2 ^ f.lo % 2 ^ f.width = f.value

/-- Every SEND word holds opcode 2, reserved zeros, and its command byte in bits 7:0. -/
theorem formatS_fixed (cmd : Byte) (l8 l9 : Bool) (stripe : BitVec 6) :
    (formatS cmd l8 l9 stripe).toNat / 2 ^ 16 % 2 ^ 16 = 0x2000 ∧
    (formatS cmd l8 l9 stripe).toNat / 2 ^ 0 % 2 ^ 8 = cmd.toNat := by
  have h := formatS_toNat cmd l8 l9 stripe
  have := stripe.isLt
  have := cmd.isLt
  have := Bool.toNat_lt l8
  have := Bool.toNat_lt l9
  omega

/-- The two fixed fields of a command's row. -/
theorem command_fixed (k : Command) (l8 l9 : Bool) (stripe : BitVec 6) :
    ∀ f ∈ [(⟨16, 16, 0x2000⟩ : Fixed), ⟨0, 8, (commandByte k).toNat⟩],
      (formatS (commandByte k) l8 l9 stripe).toNat / 2 ^ f.lo % 2 ^ f.width = f.value := by
  have h := formatS_fixed (commandByte k) l8 l9 stripe
  intro f hf
  rcases List.mem_pair.1 hf with rfl | rfl
  · exact h.1
  · exact h.2

theorem nop : Statement .nop := by
  intro f hf
  rw [List.mem_singleton.1 hf]
  rfl

theorem beginLine : Statement .beginLine := by
  intro f hf
  rw [List.mem_singleton.1 hf]
  rfl

theorem tfin : Statement .tfin := by
  intro f hf
  rw [List.mem_singleton.1 hf]
  rfl

theorem talive : Statement .talive := by
  intro f hf
  rw [List.mem_singleton.1 hf]
  rfl

theorem send (cmd : Byte) (l8 l9 : Bool) (stripe : BitVec 6) : Statement (.send cmd l8 l9 stripe) := by
  intro f hf
  rw [List.mem_singleton.1 hf]
  exact (formatS_fixed cmd l8 l9 stripe).1

theorem tset (d : BitVec 24) : Statement (.tset d) := by
  intro f hf
  rw [List.mem_singleton.1 hf]
  have h := formatD_toNat d
  have := d.isLt
  show (formatD d).toNat / 2 ^ 24 % 2 ^ 8 = 0x30
  omega

theorem rdstate (v : View) : Statement (.rdstate v) := by
  intro f hf
  rw [List.mem_singleton.1 hf]
  cases v <;> rfl

theorem sendOn (l8 l9 : Bool) (stripe : BitVec 6) : Statement (.sendOn l8 l9 stripe) :=
  command_fixed .on l8 l9 stripe

theorem sendOnVib (l8 l9 : Bool) (stripe : BitVec 6) : Statement (.sendOnVib l8 l9 stripe) :=
  command_fixed .onVib l8 l9 stripe

theorem sendOnVibShock (l8 l9 : Bool) (stripe : BitVec 6) : Statement (.sendOnVibShock l8 l9 stripe) :=
  command_fixed .onVibShock l8 l9 stripe

theorem sendCalib (l8 l9 : Bool) (stripe : BitVec 6) : Statement (.sendCalib l8 l9 stripe) :=
  command_fixed .calib l8 l9 stripe

theorem sendCalibFinished (l8 l9 : Bool) (stripe : BitVec 6) : Statement (.sendCalibFinished l8 l9 stripe) :=
  command_fixed .calibFinished l8 l9 stripe

theorem sendMeasure (l8 l9 : Bool) (stripe : BitVec 6) : Statement (.sendMeasure l8 l9 stripe) :=
  command_fixed .measure l8 l9 stripe

theorem sendMeasureFinOk (l8 l9 : Bool) (stripe : BitVec 6) : Statement (.sendMeasureFinOk l8 l9 stripe) :=
  command_fixed .measureFinOk l8 l9 stripe

theorem sendMeasureFinShock (l8 l9 : Bool) (stripe : BitVec 6) : Statement (.sendMeasureFinShock l8 l9 stripe) :=
  command_fixed .measureFinShock l8 l9 stripe

theorem sendMeasureFinVib (l8 l9 : Bool) (stripe : BitVec 6) : Statement (.sendMeasureFinVib l8 l9 stripe) :=
  command_fixed .measureFinVib l8 l9 stripe

theorem sendBeep (l8 l9 : Bool) (stripe : BitVec 6) : Statement (.sendBeep l8 l9 stripe) :=
  command_fixed .beep l8 l9 stripe

theorem sendE1 (l8 l9 : Bool) (stripe : BitVec 6) : Statement (.sendE1 l8 l9 stripe) :=
  command_fixed .e1 l8 l9 stripe

theorem sendE2 (l8 l9 : Bool) (stripe : BitVec 6) : Statement (.sendE2 l8 l9 stripe) :=
  command_fixed .e2 l8 l9 stripe

theorem sendE3 (l8 l9 : Bool) (stripe : BitVec 6) : Statement (.sendE3 l8 l9 stripe) :=
  command_fixed .e3 l8 l9 stripe

theorem sendE4 (l8 l9 : Bool) (stripe : BitVec 6) : Statement (.sendE4 l8 l9 stripe) :=
  command_fixed .e4 l8 l9 stripe

theorem sendE5 (l8 l9 : Bool) (stripe : BitVec 6) : Statement (.sendE5 l8 l9 stripe) :=
  command_fixed .e5 l8 l9 stripe

theorem sendE6 (l8 l9 : Bool) (stripe : BitVec 6) : Statement (.sendE6 l8 l9 stripe) :=
  command_fixed .e6 l8 l9 stripe

theorem sendE7 (l8 l9 : Bool) (stripe : BitVec 6) : Statement (.sendE7 l8 l9 stripe) :=
  command_fixed .e7 l8 l9 stripe

end Sys2Proof.Laws.OpcodeRow
end

