-- ==== Sys2Proof/Laws/Run.lean ====
section
/-! SUPPORT. Runs: `RunsTo` is the host's own run, it has one end, and a silent host's run is a number of ticks. -/

namespace Sys2Proof.Machine

theorem run_of_next (M : Host.Core) (n : Nat) (s u : M.State) (h : M.step s = .next u) :
    M.run (n + 1) s = M.run n u := by
  simp [Host.Core.run, h]

theorem run_of_fault (M : Host.Core) (n : Nat) (s : M.State) (r : M.Fault) (h : M.step s = .fault r) :
    M.run (n + 1) s = .fault r := by
  simp [Host.Core.run, h]

theorem run_of_refused (M : Host.Core) (n : Nat) (s : M.State) (r : M.Refusal) (h : M.step s = .refused r) :
    M.run (n + 1) s = .refused r := by
  simp [Host.Core.run, h]

/-- `RunsTo` says what the host's run of the machine answers. -/
theorem runsTo_iff_run (n : Nat) (s t : State) : RunsTo n s t ↔ Host.Core.run Sys2Proof.core n s = .next t := by
  induction n generalizing s with
  | zero =>
    show t = s ↔ Host.Outcome.next s = Host.Outcome.next t
    constructor
    · rintro rfl
      rfl
    · intro h
      cases h
      rfl
  | succ n ih =>
    show (∃ u, step s = .next u ∧ RunsTo n u t) ↔ _
    cases hs : step s with
    | next u =>
      have e := run_of_next Sys2Proof.core n s u hs
      constructor
      · rintro ⟨v, hv, h⟩
        cases hv
        exact e.trans ((ih u).1 h)
      · exact fun h => ⟨u, rfl, (ih u).2 (e.symm.trans h)⟩
    | fault r =>
      have e := run_of_fault Sys2Proof.core n s r hs
      exact ⟨fun ⟨v, hv, _⟩ => (nomatch hv), fun h => (nomatch e.symm.trans h)⟩
    | refused r =>
      have e := run_of_refused Sys2Proof.core n s r hs
      exact ⟨fun ⟨v, hv, _⟩ => (nomatch hv), fun h => (nomatch e.symm.trans h)⟩

theorem runsTo_unique {n : Nat} {s t u : State} (h : RunsTo n s t) (h' : RunsTo n s u) : t = u := by
  induction n generalizing s with
  | zero => exact Eq.trans h (Eq.symm h')
  | succ n ih =>
    obtain ⟨v, h1, h2⟩ := h
    obtain ⟨v', h1', h2'⟩ := h'
    rw [h1] at h1'
    cases h1'
    exact ih h2 h2'

/-- `n` ticks of the block. -/
def ticks (c : Config) : Nat → Block → Block
  | 0, b => b
  | n + 1, b => ticks c n (b.tick c)

theorem ticks_add (c : Config) (m n : Nat) (b : Block) : ticks c (m + n) b = ticks c n (ticks c m b) := by
  induction m generalizing b with
  | zero => simp [ticks]
  | succ m ih =>
    rw [Nat.succ_add]
    exact ih _

theorem ticks_succ (c : Config) (n : Nat) (b : Block) : ticks c (n + 1) b = (ticks c n b).tick c := by
  rw [ticks_add]
  rfl

/-- With the host silent, `n` steps are `n` ticks. -/
theorem runsTo_silent (n : Nat) (s : State) (h : s.Ready) (hi : s.inputs = []) :
    RunsTo n s { s with blk := ticks s.cfg n s.blk } := by
  induction n generalizing s with
  | zero => rfl
  | succ n ih =>
    have hs : s.inputs.tail = s.inputs := by
      rw [hi]
      rfl
    have hst := step_tick h.legal h.released (by simp [State.nextEvent, hi])
    rw [hs] at hst
    exact ⟨_, hst, ih { s with blk := s.blk.tick s.cfg } ⟨h.legal, h.released⟩ hi⟩

theorem ticks_th (c : Config) (n : Nat) (b : Block) : (ticks c n b).th = b.th := by
  induction n generalizing b with
  | zero => rfl
  | succ n ih => rw [ticks, ih, (tick_frame c b).2.1]

theorem ticks_now {c : Config} (h : c.legal = true) (n : Nat) (b : Block) (hb : b.now.toNat < 2 ^ c.clockBits) :
    (ticks c n b).now = clockWrap c (b.now.toNat + n) := by
  induction n with
  | zero => exact (clockWrap_of_fits hb).symm
  | succ n ih => rw [ticks_succ, (tick_frame c _).1, ih, clockWrap_succ h, Nat.add_assoc]

/-! ### Accepted requests -/

/-- What it says that a step accepts a request. -/
theorem accepts_iff (p : Instr → Bool) (s : State) : s.accepts p = true ↔ ∃ q i t, s.nextEvent = .request q ∧
    decode q = .ok i ∧ s.rst = false ∧ p i = true ∧ step s = .next t ∧ t.rspStatus = .ok := by
  unfold State.accepts
  cases he : s.nextEvent with
  | tick => simp
  | rst l => simp
  | request q =>
    cases hd : decode q with
    | error e => simp [hd]
    | ok i =>
      cases hs : step s with
      | next t => simp [hd, and_assoc]
      | fault r => simp [hd]
      | refused r => simp [hd]

/-- One step of a run that avoids what `p` holds of. -/
theorem avoids_succ {p : Instr → Bool} {n : Nat} {s t : State} (h : step s = .next t) :
    avoids p (n + 1) s = true ↔ s.accepts p = false ∧ avoids p n t = true := by
  simp [avoids, h]

end Sys2Proof.Machine
end

