-- ==== Sys2Proof/Tests/Slice0.lean ====
section
/-! SUPPORT. Tests. Expected values are those of spec/95_test_vectors.md and of the rules named; each word is written
out from the spec's format of it, field by field. The last part shows that every statement's hypotheses can be met. -/

namespace Sys2Proof.Tests

open Sys2Proof Sys2Proof.Machine

/-! ### Helpers -/

/-- What the ports answer: the status code and the data word. -/
def answer (o : Host.Outcome State Fault Refusal) : Option (BitVec 4 × Word) :=
  match o with
  | .next t => some (t.rspStatusPort, t.rspData)
  | .fault _ => none
  | .refused _ => none

/-- The block after the step. -/
def after (o : Host.Outcome State Fault Refusal) : Option Block :=
  match o with
  | .next t => some t.blk
  | .fault _ => none
  | .refused _ => none

/-- REF at reset with a request presented. -/
def presented (q : Word) : State := { State.reset with inputs := [.request q] }

/-- REF, initialised, no frame sent yet, at a NOW. -/
def atRest (now : Word) : State :=
  { State.reset with blk := { Block.reset Config.ref with now := now, init := true, lineOe := true } }

/-- REF, within the frame of SEND E7, 1, 1, 3 (section 2.7's trace). -/
def inFrame (phase : Phase) (idx : BitVec 4) (line : Level) (start : Word) (dur : Duration) (now : Word) : State :=
  { State.reset with
    blk := { Block.reset Config.ref with
      now := now
      te := { start := start, dur := dur, alive := true }
      init := true
      lineOe := true
      line := line
      phase := phase
      idx := idx
      frame := 0xA8F } }

/-- The configuration of section 2.5's last vector. -/
def wide : Config :=
  { Config.ref with
    stripeWidth := 6, tStartActive := 20, tStartGap := 10, tTiny := 2, tLong := 5, tGap := 2 }

/-! ### Well-formedness and decoding -/

/-- A command of the table under the general SEND is ill formed: its word reads as the command's constructor. -/
theorem test_illformed_send : Instr.wellFormed (.send 0xa0 false false 0) = false := by decide

theorem test_illformed_send_reads_otherwise :
    decode (encode (.send 0xa0 false false 0)) = .ok (.sendOn false false 0) := by decide

theorem test_wellformed_send : Instr.wellFormed (.send 0xa1 false false 0) = true := by decide

/-- The bits fields of a SEND word (R56), and of the others (R55, R57, R58). -/
def sWord (stripe : BitVec 6) (l9 l8 : BitVec 1) (cmd : Byte) : Word := 0x2#4 ++ 0#12 ++ stripe ++ l9 ++ l8 ++ cmd

theorem test_decode_nop : decode (0x0#4 ++ 0#28) = .ok .nop := by decide
theorem test_decode_begin : decode (0x1#4 ++ 0#28) = .ok .beginLine := by decide
theorem test_decode_send_l8 : decode (sWord 0b100001#6 0#1 1#1 0x11#8) = .ok (.send 0x11 true false 33) := by decide
theorem test_decode_send_l9 : decode (sWord 0b000010#6 1#1 0#1 0xff#8) = .ok (.send 0xff false true 2) := by decide
theorem test_decode_tset : decode (0x3#4 ++ 0#4 ++ 0x7fffff#24) = .ok (.tset 8388607) := by decide
theorem test_decode_tset_negative : decode (0x3#4 ++ 0#4 ++ 0xffffff#24) = .ok (.tset (-1)) := by decide
theorem test_decode_tfin : decode (0x4#4 ++ 0#28) = .ok .tfin := by decide
theorem test_decode_talive : decode (0x5#4 ++ 0#28) = .ok .talive := by decide
theorem test_decode_rdstate : decode (0x6#4 ++ 0#24 ++ 8#4) = .ok (.rdstate .seq) := by decide
theorem test_decode_send_on : decode (sWord 0b000001#6 0#1 1#1 0xa0#8) =
    .ok (.sendOn true false 1) := by decide
theorem test_decode_send_on_vib : decode (sWord 0b000001#6 0#1 1#1 0x30#8) =
    .ok (.sendOnVib true false 1) := by decide
theorem test_decode_send_on_vib_shock : decode (sWord 0b000001#6 0#1 1#1 0x20#8) =
    .ok (.sendOnVibShock true false 1) := by decide
theorem test_decode_send_calib : decode (sWord 0b000001#6 0#1 1#1 0x80#8) =
    .ok (.sendCalib true false 1) := by decide
theorem test_decode_send_calib_finished : decode (sWord 0b000001#6 0#1 1#1 0x90#8) =
    .ok (.sendCalibFinished true false 1) := by decide
theorem test_decode_send_measure : decode (sWord 0b000001#6 0#1 1#1 0x10#8) =
    .ok (.sendMeasure true false 1) := by decide
theorem test_decode_send_measure_fin_ok : decode (sWord 0b000001#6 0#1 1#1 0x00#8) =
    .ok (.sendMeasureFinOk true false 1) := by decide
theorem test_decode_send_measure_fin_shock : decode (sWord 0b000001#6 0#1 1#1 0x60#8) =
    .ok (.sendMeasureFinShock true false 1) := by decide
theorem test_decode_send_measure_fin_vib : decode (sWord 0b000001#6 0#1 1#1 0x70#8) =
    .ok (.sendMeasureFinVib true false 1) := by decide
theorem test_decode_send_beep : decode (sWord 0b000001#6 0#1 1#1 0x40#8) =
    .ok (.sendBeep true false 1) := by decide
theorem test_decode_send_e1 : decode (sWord 0b000001#6 0#1 1#1 0x50#8) =
    .ok (.sendE1 true false 1) := by decide
theorem test_decode_send_e2 : decode (sWord 0b000001#6 0#1 1#1 0xb0#8) =
    .ok (.sendE2 true false 1) := by decide
theorem test_decode_send_e3 : decode (sWord 0b000001#6 0#1 1#1 0xc0#8) =
    .ok (.sendE3 true false 1) := by decide
theorem test_decode_send_e4 : decode (sWord 0b000001#6 0#1 1#1 0xd0#8) =
    .ok (.sendE4 true false 1) := by decide
theorem test_decode_send_e5 : decode (sWord 0b000001#6 0#1 1#1 0xe0#8) =
    .ok (.sendE5 true false 1) := by decide
theorem test_decode_send_e6 : decode (sWord 0b000001#6 0#1 1#1 0xf0#8) =
    .ok (.sendE6 true false 1) := by decide
theorem test_decode_send_e7 : decode (sWord 0b000001#6 0#1 1#1 0xa8#8) =
    .ok (.sendE7 true false 1) := by decide

theorem test_reject_nop_bit : decode 0x00000001 = .error .reservedBits := by decide
theorem test_reject_begin_bit_27 : decode 0x18000000 = .error .reservedBits := by decide
theorem test_reject_send_bit_16 : decode 0x200100A0 = .error .reservedBits := by decide
theorem test_reject_tset_bit_24 : decode 0x31000005 = .error .reservedBits := by decide
theorem test_reject_rdstate_bit_4 : decode 0x60000010 = .error .reservedBits := by decide
theorem test_reject_view_11 : decode 0x6000000B = .error .unknownView := by decide
theorem test_reject_view_15 : decode 0x6000000F = .error .unknownView := by decide
theorem test_reject_opcode_7 : decode 0x70000000 = .error .reservedOpcode := by decide
theorem test_reject_opcode_15 : decode 0xFFFFFFFF = .error .reservedOpcode := by decide

/-- A row of 8 bits is read inside a SEND word, a row of 32 bits as it stands (log entries 7 and 8). -/
theorem test_table_words : decodeTableWord 8 0xA8 = some (.sendE7 false false 0) ∧
    decodeTableWord 32 0x20000011 = some (.send 0x11 false false 0) ∧
    decodeTableWord 32 0x6000000B = none := by decide

/-- A word placed for fetching is the one the very next step runs. -/
theorem test_with_fetch_word : answer (step (State.reset.withFetchWord 32 0x6000000A)) = some (0, 0x00200C02) := by
  decide

/-! ### One request -/

theorem test_nop : answer (exec .nop (atRest 7)) = some (0, 0) := by decide
theorem test_begin : after (exec .beginLine State.reset) =
    some { Block.reset Config.ref with init := true, lineOe := true, line := false } := by decide
theorem test_begin_busy : answer (exec .beginLine (inFrame .bitActive 4 true 24 3 25)) = some (6, 0) := by decide
theorem test_send_invalid : answer (exec (.send 0x11 false false 4) (atRest 0)) = some (3, 0) := by decide
theorem test_send_uninitialised : answer (exec (.send 0x11 false false 0) State.reset) = some (5, 0) := by decide
theorem test_tset : after (exec (.tset 5) (atRest 100)) =
    some { (atRest 100).blk with th := { start := 100, dur := 5, alive := true } } := by decide
theorem test_tset_negative : answer (exec (.tset (-1)) State.reset) = some (2, 0) ∧
    after (exec (.tset (-1)) State.reset) = some State.reset.blk := by decide

/-- A REF block at a NOW with a host timer. -/
def timerAt (c : Config) (now start : Word) (dur : Duration) : State :=
  { State.resetWith c with
    blk := { Block.reset c with now := now, th := { start := start, dur := dur, alive := true } } }

theorem test_tfin : answer (exec .tfin (timerAt Config.ref 104 100 5)) = some (0, 0) ∧
    answer (exec .tfin (timerAt Config.ref 105 100 5)) = some (0, 1) := by decide

/-- The wrap vector of section 2.3: CLOCK_BITS 24, armed at 16777213 for 5. -/
theorem test_tfin_wraps :
    answer (exec .tfin (timerAt { Config.ref with clockBits := 24 } 1 16777213 5)) = some (0, 0) ∧
    answer (exec .tfin (timerAt { Config.ref with clockBits := 24 } 2 16777213 5)) = some (0, 1) := by decide
theorem test_talive : answer (exec .talive (timerAt Config.ref 100 100 5)) = some (0, 1) ∧
    answer (exec .talive State.reset) = some (0, 0) := by decide

/-- Section 2.4's views at NOW = 25, in the pulse of symbol 4. -/
theorem test_rdstate_in_frame :
    [View.status, .now, .teStart, .teDur, .teFlags, .seq, .frame, .config].map
      (fun v => answer (exec (.rdstate v) (inFrame .bitActive 4 true 24 3 25))) =
    [0x1B, 0x19, 0x18, 0x3, 0x1, 0x403, 0xA8F, 0x00200C02].map (fun d => some ((0 : BitVec 4), d)) := by decide
theorem test_rdstate_timer :
    [View.thStart, .thDur, .thFlags].map (fun v => answer (exec (.rdstate v) (timerAt Config.ref 25 0 30))) =
    [0x0, 0x1E, 0x1].map (fun d => some ((0 : BitVec 4), d)) := by decide

/-- What section 2.6 says of each command with flags 1, 1, 3: its frame word. -/
def startsFrame (i : Instr) (w : FrameWord) : Bool :=
  after (exec i (atRest 9)) == some { (atRest 9).blk with
    te := { start := 9, dur := 8, alive := true }
    line := true
    phase := .startActive
    frame := w }

theorem test_send_on : startsFrame (.sendOn true true 3) 0xA0F = true := by decide
theorem test_send_on_vib : startsFrame (.sendOnVib true true 3) 0x30F = true := by decide
theorem test_send_on_vib_shock : startsFrame (.sendOnVibShock true true 3) 0x20F = true := by decide
theorem test_send_calib : startsFrame (.sendCalib true true 3) 0x80F = true := by decide
theorem test_send_calib_finished : startsFrame (.sendCalibFinished true true 3) 0x90F = true := by decide
theorem test_send_measure : startsFrame (.sendMeasure true true 3) 0x10F = true := by decide
theorem test_send_measure_fin_ok : startsFrame (.sendMeasureFinOk true true 3) 0x00F = true := by decide
theorem test_send_measure_fin_shock : startsFrame (.sendMeasureFinShock true true 3) 0x60F = true := by decide
theorem test_send_measure_fin_vib : startsFrame (.sendMeasureFinVib true true 3) 0x70F = true := by decide
theorem test_send_beep : startsFrame (.sendBeep true true 3) 0x40F = true := by decide
theorem test_send_e1 : startsFrame (.sendE1 true true 3) 0x50F = true := by decide
theorem test_send_e2 : startsFrame (.sendE2 true true 3) 0xB0F = true := by decide
theorem test_send_e3 : startsFrame (.sendE3 true true 3) 0xC0F = true := by decide
theorem test_send_e4 : startsFrame (.sendE4 true true 3) 0xD0F = true := by decide
theorem test_send_e5 : startsFrame (.sendE5 true true 3) 0xE0F = true := by decide
theorem test_send_e6 : startsFrame (.sendE6 true true 3) 0xF0F = true := by decide
theorem test_send_e7 : startsFrame (.sendE7 true true 3) 0xA8F = true := by decide

/-- The non-REF vector of section 2.5: W = 0xA0A1, F = 109. -/
theorem test_wide_frame : frameWord wide 0xa0 true false 33 = 0xA0A1 ∧ frameTicks wide 0xA0A1 = 109 := by decide

/-- The longest frame under REF, and E7's (section 2.5, section 2.6). -/
theorem test_frame_ticks : frameTicks Config.ref 0xF0F = 52 ∧ frameTicks Config.ref 0xA8F = 50 := by decide

theorem test_stripe_range : answer (exec (.sendOn false false 3) (atRest 0)) = some (0, 0) ∧
    answer (exec (.sendOn false false 4) (atRest 0)) = some (4, 0) ∧
    answer (exec (.sendOn false false 63) (atRest 0)) = some (4, 0) := by decide

/-! ### One tick, at the rows of section 2.7's trace -/

theorem test_tick_start_pulse : after (step (inFrame .startActive 0 true 0 8 7)) =
    some (inFrame .startGap 0 false 8 4 8).blk := by decide
theorem test_tick_start_gap : after (step (inFrame .startGap 0 false 8 4 11)) =
    some (inFrame .bitActive 0 true 12 3 12).blk := by decide
theorem test_tick_pulse : after (step (inFrame .bitActive 0 true 12 3 14)) =
    some (inFrame .bitGap 0 false 15 1 15).blk := by decide
theorem test_tick_pulse_goes_on : after (step (inFrame .bitActive 0 true 12 3 13)) =
    some (inFrame .bitActive 0 true 12 3 14).blk := by decide
theorem test_tick_gap : after (step (inFrame .bitGap 0 false 15 1 15)) =
    some (inFrame .bitActive 1 true 16 1 16).blk := by decide
theorem test_tick_last_gap : after (step (inFrame .bitGap 11 false 49 1 49)) =
    some { (inFrame .done 0 false 49 1 50).blk with frame := 0 } := by decide

/-! ### The hypotheses of the statements can be met -/

theorem witness_decode_of_encode : Instr.wellFormed (.tset (-8388608)) = true ∧
    Instr.wellFormed (.send 0x11 true true 63) = true := by decide

theorem witness_encode_of_decode : decode 0x2000FFFF = .ok (.send 0xff true true 63) ∧
    decode 0x307FFFFF = .ok (.tset 8388607) ∧ decode 0x6000000A = .ok (.rdstate .config) := by decide

/-- A word at the boundary of each case (a) to (f) of R60. -/
theorem witness_illegal_words : illegalWord 0x70000000 ∧ illegalWord 0x00000001 ∧ illegalWord 0x18000000 ∧
    illegalWord 0x20010000 ∧ illegalWord 0x31000000 ∧ illegalWord 0x60000010 ∧ illegalWord 0x6000000B := by
  simp [illegalWord]

theorem witness_legal_words : ¬ illegalWord 0x00000000 ∧ ¬ illegalWord 0x10000000 ∧ ¬ illegalWord 0x2000FFFF ∧
    ¬ illegalWord 0x30000000 ∧ ¬ illegalWord 0x307FFFFF ∧ ¬ illegalWord 0x30800000 ∧
    ¬ illegalWord 0x6000000A := by
  simp [illegalWord]

theorem witness_illegal_presented : (presented 0x70000000).cfg.legal = true ∧ (presented 0x70000000).rst = false ∧
    (presented 0x70000000).inputs = .request 0x70000000 :: [] ∧ illegalWord 0x70000000 :=
  ⟨by decide, rfl, rfl, witness_illegal_words.1⟩

/-- The opcodes of R59's three clauses. -/
theorem witness_operands_of_a_word : (0x2000FFFF#32).toNat / 2 ^ 28 = 2 ∧ (0x30800000#32).toNat / 2 ^ 28 = 3 ∧
    (0x6000000A#32).toNat / 2 ^ 28 = 6 := by decide

theorem witness_step_runs : (presented 0x10000000).cfg.legal = true ∧ (presented 0x10000000).rst = false ∧
    (presented 0x10000000).inputs = .request 0x10000000 :: [] ∧ decode 0x10000000 = .ok .beginLine :=
  ⟨by decide, rfl, rfl, by decide⟩

theorem witness_legal : Config.ref.legal = true ∧ wide.legal = true ∧ State.reset.cfg.legal = true := by decide

/-- Configurations just outside each range of R7, R9, R10 and R12. -/
theorem witness_illegal_configurations : ∀ c ∈ [{ Config.ref with stripeWidth := 0 },
    { Config.ref with stripeWidth := 7 }, { Config.ref with clockBits := 23 }, { Config.ref with clockBits := 33 },
    { Config.ref with tGap := 0 }, { Config.ref with tLong := 1 },
    { Config.ref with tStartActive := 3, tStartGap := 1 }], (State.resetWith c).cfg.legal = false := by decide

theorem witness_refused : ∃ t, State.reset.rst = false ∧ serve 0x30FFFFFF State.reset = .next t ∧
    t.rspStatus ≠ .ok := ⟨_, rfl, rfl, by decide⟩

/-- A word and a state for each clause of R127 over SEND words. -/
theorem witness_error_priority_send :
    (0x20010011#32).toNat / 2 ^ 16 % 2 ^ 12 ≠ 0 ∧
    (State.reset.blk.init = false) ∧
    ((inFrame .bitActive 4 true 24 3 25).blk.init = true ∧ (inFrame .bitActive 4 true 24 3 25).blk.busy = true) ∧
    ((atRest 0).blk.init = true ∧ (atRest 0).blk.busy = false ∧
      validCommand (BitVec.ofNat 8 0x20001011) = false) ∧
    (validCommand (BitVec.ofNat 8 0x200010A0) = true ∧
      2 ^ (atRest 0).cfg.stripeWidth ≤ 0x200010A0 / 2 ^ 10 % 2 ^ 6) := by decide

theorem witness_error_priority_others :
    ((0x10000001#32).toNat / 2 ^ 28 = 1 ∧ (0x10000001#32).toNat % 2 ^ 28 ≠ 0) ∧
    ((0x10000000#32).toNat / 2 ^ 28 = 1 ∧ (0x10000000#32).toNat % 2 ^ 28 = 0) ∧
    ((0x31800000#32).toNat / 2 ^ 28 = 3 ∧ (0x31800000#32).toNat / 2 ^ 24 % 2 ^ 4 ≠ 0) ∧
    ((0x30800000#32).toNat / 2 ^ 24 % 2 ^ 4 = 0 ∧ 2 ^ 23 ≤ (0x30800000#32).toNat % 2 ^ 24) := by decide

theorem witness_error_priority_queries : ∃ t, serve 0x40000000 State.reset = .next t ∧ t.rspStatus = .ok :=
  ⟨_, rfl, rfl⟩

theorem witness_host_record : ∃ t u, exec .tfin State.reset = .next t ∧ t.rspStatus = .ok ∧
    exec (.tset (-1)) State.reset = .next u ∧ u.rspStatus ≠ .ok := ⟨_, _, rfl, rfl, rfl, by decide⟩

/-- Steps on a request answered, an illegal word, a tick, a level of rst, and a request while rst is asserted. -/
theorem witness_host_record_steps :
    (∃ t, step (presented 0x40000000) = .next t ∧ (presented 0x40000000).nextEvent = .request 0x40000000 ∧
      t.rspStatus = .ok ∧ t.hostErrors = []) ∧
    (∃ t, step (presented 0x70000000) = .next t ∧ t.hostErrors = [.illegalOp]) ∧
    (∃ t, step State.reset = .next t ∧ ∀ q, State.reset.nextEvent ≠ .request q) ∧
    (∃ t, step { State.reset with inputs := [.rst true] } = .next t) ∧
    (∃ t, step { presented 0x70000000 with rst := true } = .next t ∧ t.hostErrors = []) :=
  ⟨⟨_, rfl, rfl, rfl, rfl⟩, ⟨_, rfl, by decide⟩, ⟨_, rfl, fun _ h => (nomatch h)⟩, ⟨_, rfl⟩,
    ⟨_, rfl, by decide⟩⟩

/-- A query answered OK with a 1, and a request refused with data 0. -/
theorem witness_response : (∃ t, exec .talive (timerAt Config.ref 105 100 5) = .next t ∧ t.rspStatus = .ok ∧
    t.rspData = 1) ∧ (∃ t, exec .beginLine (inFrame .startGap 0 false 8 4 9) = .next t ∧ t.rspStatus = .busy) :=
  ⟨⟨_, rfl, by decide, by decide⟩, ⟨_, rfl, by decide⟩⟩

/-- From reset a refused TSET and other requests; with the host timer armed an accepted TSET and the release of rst. -/
theorem witness_talive : State.reset.cfg.legal = true ∧ State.reset.blk = Block.reset State.reset.cfg ∧
    avoids Instr.isTset 4 { State.reset with
      inputs := [.request 0x30FFFFFF, .request 0x10000000, .tick, .rst true] } = true ∧
    avoids Instr.isTset 1 (presented 0x30000005) = false ∧
    (timerAt Config.ref 105 100 5).blk.th.alive = true ∧
    (∀ e ∈ [Event.request 0x30000007, .rst false, .tick, .request 0x70000000], e.sparesReset = true) := by decide

/-- The first and last operands of each clause of R78. -/
theorem witness_tset : (0 : Int) ≤ (0#24).toInt ∧ 0 ≤ (8388607#24).toInt ∧ (-1#24).toInt < 0 ∧
    (8388608#24).toInt < 0 := by decide

theorem witness_tset_next : ∃ t u, exec (.tset 0) State.reset = .next t ∧ t.blk.thFinished t.cfg = true ∧
    exec (.tset 1) State.reset = .next u ∧ u.blk.thFinished u.cfg = false :=
  ⟨_, _, rfl, by decide, rfl, by decide⟩

/-- NOW and START at the ends of a 24-bit clock. -/
theorem witness_tfin : ∃ s : State, s.cfg.legal = true ∧ s.blk.now.toNat < 2 ^ s.cfg.clockBits ∧
    s.blk.th.start.toNat < 2 ^ s.cfg.clockBits ∧ s.blk.th.start.toNat = 2 ^ s.cfg.clockBits - 1 :=
  ⟨timerAt { Config.ref with clockBits := 24 } 0 16777215 0, by decide⟩

theorem witness_idempotent : ∃ t, exec (.rdstate .teFlags) State.reset = .next t := ⟨_, rfl⟩

/-- The states of section 2.7's trace, and the machine at rest, meet the invariant. -/
theorem inFrame_inv (phase : Phase) (idx : BitVec 4) (line : Level) (start : Word) (dur : Duration) (now : Word)
    (hb : phase.busy = true) (ht : 1 ≤ dur.toNat ∧
      Timer.elapsed Config.ref now { start := start, dur := dur, alive := true } < dur.toNat)
    (hl : line = true ↔ phase = .startActive ∨ phase = .bitActive) (hi : phase.inSymbol → idx.toNat < 12)
    (hz : ¬ phase.inSymbol → idx = 0) : (inFrame phase idx line start dur now).Inv where
  legal := by
    show Config.ref.legal = true
    decide
  blk := {
    nowFits := now.isLt
    thStartFits := by
      show 0 < 2 ^ 32
      decide
    teStartFits := start.isLt
    driven := fun _ => ⟨rfl, rfl⟩
    initIsOe := rfl
    quiet := fun h => absurd (hb.symm.trans h) (by decide)
    timed := fun _ => ⟨rfl, ht⟩
    lineLevel := hl
    idxInFrame := hi
    idxZero := hz
    frameFits := by
      show (0xA8F#16).toNat < 2 ^ 12
      decide }
  held := fun h => absurd h (by simp [inFrame, State.reset])

theorem atRest_inv (now : Word) : (atRest now).Inv where
  legal := by
    show Config.ref.legal = true
    decide
  blk := {
    nowFits := now.isLt
    thStartFits := by
      show 0 < 2 ^ 32
      decide
    teStartFits := by
      show 0 < 2 ^ 32
      decide
    driven := fun _ => ⟨rfl, rfl⟩
    initIsOe := rfl
    quiet := fun _ => ⟨rfl, rfl, rfl⟩
    timed := fun h => absurd (show Phase.busy .idle = true from h) (by decide)
    lineLevel := ⟨fun h => absurd (show false = true from h) (by decide), fun h => by
      rcases h with h | h <;> cases h⟩
    idxInFrame := fun h => by
      rcases h with h | h <;> cases h
    idxZero := fun _ => rfl
    frameFits := by
      show 0 < 2 ^ 12
      decide }
  held := fun h => absurd (show false = true from h) (by decide)

theorem witness_inv_in_frame : (inFrame .bitActive 11 true 46 3 48).Inv ∧ (inFrame .bitGap 0 false 15 1 15).Inv ∧
    (inFrame .startActive 0 true 0 8 7).Inv := by
  refine ⟨inFrame_inv _ _ _ _ _ _ rfl (by decide) (by decide) (fun _ => by decide) (fun h => absurd (.inl rfl) h),
    inFrame_inv _ _ _ _ _ _ rfl (by decide) (by decide) (fun _ => by decide) (fun h => absurd (.inr rfl) h),
    inFrame_inv _ _ _ _ _ _ rfl (by decide) (by decide) (fun h => ?_) (fun _ => rfl)⟩
  rcases h with h | h <;> cases h

theorem witness_begin : (State.reset.blk.busy = false) ∧ (inFrame .startGap 0 false 8 4 9).blk.busy = true ∧
    ((atRest 5).blk.init = true ∧ (atRest 5).blk.busy = false) := by decide

/-- The clauses of R83, at the last stripe that fits and the first that does not. -/
theorem witness_send : sendOperands (.sendOn true false 3) = some (0xa0, true, false, 3) ∧
    sendOperands (.send 0xa1 true false 3) = some (0xa1, true, false, 3) ∧
    ((atRest 0).blk.init = true ∧ (atRest 0).blk.busy = false ∧ validCommand 0xa0 = true ∧
      (3#6).toNat < 2 ^ (atRest 0).cfg.stripeWidth) ∧
    State.reset.blk.init = false ∧
    ((inFrame .bitGap 0 false 15 1 15).blk.init = true ∧ (inFrame .bitGap 0 false 15 1 15).blk.busy = true) ∧
    validCommand 0xa1 = false ∧ 2 ^ (atRest 0).cfg.stripeWidth ≤ (4#6).toNat := by decide

theorem witness_stripe_fits : (Config.ref.legal = true ∧ (3#6).toNat < 2 ^ Config.ref.stripeWidth) ∧
    (wide.legal = true ∧ (63#6).toNat < 2 ^ wide.stripeWidth) := by decide

theorem witness_no_request_disturbs : (inFrame .startActive 0 true 0 8 0).rst = false ∧
    (inFrame .startActive 0 true 0 8 0).blk.busy = true ∧ (inFrame .startActive 0 true 0 8 0).blk.init = true := by
  decide

/-- NOW's last value before it wraps; a step on each kind of event. -/
theorem witness_clock : (∃ t, step { atRest 0xFFFFFFFF with inputs := [.tick] } = .next t ∧ t.blk.now = 0) ∧
    (∃ t, step { atRest 7 with inputs := [.rst true] } = .next t) ∧
    (∃ t, step { atRest 7 with rst := true, inputs := [.rst false] } = .next t) ∧
    (∃ t, step { atRest 7 with inputs := [.request 0] } = .next t) :=
  ⟨⟨_, rfl, by decide⟩, ⟨_, rfl⟩, ⟨_, rfl⟩, ⟨_, rfl⟩⟩

/-- The last tick of each stage, and a tick within one. -/
theorem witness_tick_stages :
    ((inFrame .bitActive 0 true 12 3 13).cfg.legal = true ∧ (inFrame .bitActive 0 true 12 3 13).rst = false ∧
      (inFrame .bitActive 0 true 12 3 13).nextEvent = .tick ∧
      (inFrame .bitActive 0 true 12 3 13).blk.te.finished Config.ref 14 = false) ∧
    (inFrame .startActive 0 true 0 8 7).blk.te.finished Config.ref 8 = true ∧
    (inFrame .startGap 0 false 8 4 11).blk.te.finished Config.ref 12 = true ∧
    (inFrame .bitActive 0 true 12 3 14).blk.te.finished Config.ref 15 = true ∧
    ((inFrame .bitGap 10 false 45 1 45).blk.te.finished Config.ref 46 = true ∧
      (inFrame .bitGap 10 false 45 1 45).blk.idx.toNat < 9 + Config.ref.stripeWidth) ∧
    ((inFrame .bitGap 11 false 49 1 49).blk.te.finished Config.ref 50 = true ∧
      9 + Config.ref.stripeWidth ≤ (inFrame .bitGap 11 false 49 1 49).blk.idx.toNat) ∧
    (14#32) = BitVec.ofNat 32 ((13 + 1) % 2 ^ Config.ref.clockBits) := by decide

/-- A tick after an answered TALIVE, with rst released and with rst asserted. -/
theorem witness_ports_across_tick : ∃ t, exec .talive (timerAt Config.ref 105 100 5) = .next t ∧ t.rspData = 1 ∧
    t.cfg.legal = true ∧ t.nextEvent = .tick ∧ State.nextEvent { t with rst := true } = .tick :=
  ⟨_, rfl, by decide, by decide, rfl, rfl⟩

theorem witness_one_transition : ∃ t, (inFrame .bitActive 11 true 46 3 48).rst = false ∧
    (inFrame .bitActive 11 true 46 3 48).nextEvent = .tick ∧ step (inFrame .bitActive 11 true 46 3 48) = .next t ∧
    t.blk.busy = true := ⟨_, rfl, rfl, rfl, by decide⟩

/-- A move of each of the three kinds. -/
theorem witness_phase_moves :
    (∃ t, step { inFrame .startGap 0 false 8 4 9 with inputs := [.rst true] } = .next t ∧
      t.blk.phase ≠ .startGap) ∧
    (∃ t, step { atRest 0 with inputs := [.request 0x200000A0] } = .next t ∧ t.blk.phase ≠ .idle) ∧
    (∃ t, step (inFrame .startActive 0 true 0 8 7) = .next t ∧ t.blk.phase ≠ .startActive) :=
  ⟨⟨_, rfl, by decide⟩, ⟨_, rfl, by decide⟩, ⟨_, rfl, by decide⟩⟩

theorem witness_finished : (timerAt Config.ref 105 100 5).blk.thFinished Config.ref = true ∧
    (inFrame .bitActive 0 true 12 3 15).blk.teFinished Config.ref = true := by decide

theorem witness_timer_armed : Config.ref.legal = true ∧ (0xFFFFFFFF#32).toNat < 2 ^ Config.ref.clockBits := by decide

/-- A TSET of 5, and after it a BEGIN, an illegal word, a refused TSET and ticks. -/
theorem witness_host_timer : ∃ t, State.reset.cfg.legal = true ∧ State.reset.rst = false ∧
    (0 : Int) ≤ (5#24).toInt ∧ exec (.tset 5) State.reset = .next t ∧
    (∀ e ∈ [Event.tick, .request 0x10000000, .request 0x70000000, .request 0x30FFFFFF, .tick],
      e.sparesReset = true) ∧
    avoids Instr.isTset 5 { t with
      inputs := [.tick, .request 0x10000000, .request 0x70000000, .request 0x30FFFFFF, .tick] } = true :=
  ⟨_, by decide, rfl, by decide, rfl, by decide, by decide⟩

theorem witness_never_disarmed : ∃ t, step (timerAt Config.ref 105 100 5) = .next t ∧
    (timerAt Config.ref 105 100 5).nextEvent ≠ .rst true ∧ t.blk.th = (timerAt Config.ref 105 100 5).blk.th ∧
    (timerAt Config.ref 105 100 5).blk.th.elapsed Config.ref 105 + 1 < 2 ^ Config.ref.clockBits :=
  ⟨_, rfl, by decide, by decide, by decide⟩

theorem witness_encoder_timer_kept : ∃ t, step (inFrame .done 0 false 49 1 50) = .next t ∧
    t.blk.te = (inFrame .done 0 false 49 1 50).blk.te ∧
    (inFrame .done 0 false 49 1 50).blk.teFinished Config.ref = true ∧
    (inFrame .done 0 false 49 1 50).blk.te.elapsed Config.ref 50 + 1 < 2 ^ Config.ref.clockBits :=
  ⟨_, rfl, by decide, by decide, by decide⟩

theorem witness_host_timer_written :
    (∃ t, step (presented 0x30000005) = .next t ∧ t.blk.th ≠ State.reset.blk.th) ∧
    (∃ t, step { timerAt Config.ref 9 3 5 with inputs := [.rst true] } = .next t ∧
      t.blk.th ≠ (timerAt Config.ref 9 3 5).blk.th) :=
  ⟨⟨_, rfl, by decide⟩, ⟨_, rfl, by decide⟩⟩

theorem witness_init_written :
    (∃ t, step (presented 0x10000000) = .next t ∧ t.blk.init ≠ State.reset.blk.init) ∧
    (∃ t, step { atRest 0 with inputs := [.rst true] } = .next t ∧ t.blk.init ≠ (atRest 0).blk.init) ∧
    (∃ t, exec .beginLine State.reset = .next t ∧ t.rspStatus = .ok) ∧
    (sendOperands (.sendE7 true true 3)).isSome ∧ State.reset.blk.init = false :=
  ⟨⟨_, rfl, by decide⟩, ⟨_, rfl, by decide⟩, ⟨_, rfl, rfl⟩, rfl, rfl⟩

/-- The states of R136's clauses: rst taken, rst held with a request or a tick to come, rst released, the
first tick. -/
theorem witness_reset : State.nextEvent { atRest 3 with inputs := [.rst true] } = .rst true ∧
    State.nextEvent { State.reset with rst := true, inputs := [.request 0x10000000] } ≠ .rst false ∧
    State.nextEvent { State.reset with rst := true } ≠ .rst false ∧
    State.reset.blk = Block.reset State.reset.cfg ∧
    State.nextEvent { State.reset with rst := true, inputs := [.rst false] } = .rst false ∧
    State.reset.nextEvent = .tick := by decide

theorem witness_first_tick : ∃ t, step State.reset = .next t ∧ t.blk.now = 1 := ⟨_, rfl, by decide⟩

theorem witness_reset_in_frame : ∃ t,
    State.nextEvent { inFrame .startGap 0 false 8 4 10 with inputs := [.rst true] } = .rst true ∧
    (inFrame .startGap 0 false 8 4 10).blk.busy = true ∧
    step { inFrame .startGap 0 false 8 4 10 with inputs := [.rst true] } = .next t := ⟨_, rfl, rfl, rfl⟩

/-- After the reset of a frame: the release, a TSET, an illegal word, a query, a refused SEND and ticks with no BEGIN;
then a BEGIN, after which a SEND would be accepted. -/
theorem witness_after_reset : ∃ t,
    step { inFrame .startGap 0 false 8 4 10 with inputs := [.rst true] } = .next t ∧
    avoids Instr.isSend 7 { t with inputs := [.rst false, .request 0x30000005, .request 0x70000000,
      .request 0x60000000, .request 0x200000A0, .tick, .tick] } = true ∧
    avoids Instr.isBegin 7 { t with inputs := [.rst false, .request 0x30000005, .request 0x70000000,
      .request 0x60000000, .request 0x200000A0, .tick, .tick] } = true ∧
    avoids Instr.isSend 3 { t with inputs := [.rst false, .request 0x10000000, .tick] } = true ∧
    avoids Instr.isBegin 3 { t with inputs := [.rst false, .request 0x10000000, .tick] } = false ∧
    avoids Instr.isSend 3 { t with inputs := [.rst false, .request 0x10000000, .request 0x200000A0] } = false :=
  ⟨_, rfl, by decide, by decide, by decide, by decide, by decide⟩

/-- Neither a reset nor the end of the last gap: the frame goes on; and the tick that ends it. -/
theorem witness_frame_goes_on : (∃ t, step (inFrame .bitActive 11 true 46 3 48) = .next t ∧ t.blk.busy = true) ∧
    (∃ t, step (inFrame .bitGap 11 false 49 1 49) = .next t ∧ t.blk.phase = .done) :=
  ⟨⟨_, rfl, by decide⟩, ⟨_, rfl, by decide⟩⟩

theorem witness_line_driven : (atRest 0).blk.lineOe = true := by decide

theorem witness_inv_step : ∃ t, (atRest 9).Inv ∧ step (atRest 9) = .next t := ⟨_, atRest_inv 9, rfl⟩

theorem witness_reachable : ∃ u, Config.ref.legal = true ∧
    RunsTo 2 { State.resetWith Config.ref with inputs := [.request 0x10000000, .request 0x200000A0] } u ∧
    u.blk.busy = true := by
  refine ⟨_, by decide, ⟨_, rfl, _, rfl, rfl⟩, by decide⟩

theorem atRest_ready (now : Word) : (atRest now).Ready where
  legal := by
    show Config.ref.legal = true
    decide
  released := rfl

/-- A SEND accepted at rest: the hypotheses of the statements about whole frames. -/
theorem witness_frame : ∃ t, (atRest 5).Ready ∧ (atRest 5).blk.Inv (atRest 5).cfg ∧
    sendOperands (.sendE7 true true 3) = some (0xa8, true, true, 3) ∧
    exec (.sendE7 true true 3) (atRest 5) = .next t ∧ t.rspStatus = .ok :=
  ⟨_, atRest_ready 5, (atRest_inv 5).blk, rfl, rfl, rfl⟩

/-- The state after that SEND: traffic within the frame, two SENDs and a BEGIN turned away, and traffic past its end
with a busy SEND and an ill-formed SEND on the way and an invalid SEND after it. -/
theorem witness_leaves_frame : ∃ t, exec (.sendE7 true true 3) (atRest 5) = .next t ∧
    t.LeavesFrame 0xA8F [.tick, .request 0x200000A0, .request 0x10000000, .request 0x3000001E, .tick] ∧
    t.LeavesFrame 0xA8F (.request 0x200000A0 :: .request 0x200100A0 :: List.replicate 50 .tick ++
      [.request 0x20000011, .tick]) :=
  ⟨_, rfl, ⟨by decide, .inl (by decide)⟩, ⟨by decide +kernel, .inr (by decide +kernel)⟩⟩

theorem witness_frame_word : (0xF0F#16).toNat < 2 ^ 12 := by decide

theorem witness_equal_sends : ∃ t t', (atRest 0).Ready ∧ (atRest 0xFFFFFFF0).Ready ∧
    (atRest 0).blk.Inv (atRest 0).cfg ∧ (atRest 0xFFFFFFF0).blk.Inv (atRest 0xFFFFFFF0).cfg ∧
    (atRest 0xFFFFFFF0).cfg = (atRest 0).cfg ∧ exec (.sendOn false false 0) (atRest 0) = .next t ∧
    exec (.sendOn false false 0) (atRest 0xFFFFFFF0) = .next t' ∧ t.rspStatus = .ok ∧ t'.rspStatus = .ok ∧
    t.LeavesFrame 0xA00 [.tick, .request 0x20000030, .tick] ∧
    t'.LeavesFrame 0xA00 [.request 0x10000000, .tick, .tick] :=
  ⟨_, _, atRest_ready _, atRest_ready _, (atRest_inv _).blk, (atRest_inv _).blk, rfl, rfl, rfl, rfl, rfl,
    ⟨by decide, .inl (by decide)⟩, ⟨by decide, .inl (by decide)⟩⟩

theorem witness_other_traffic : (inFrame .startActive 0 true 0 8 0).cfg.legal = true ∧
    ∀ e ∈ [Event.request 0x3000001E, .tick, .request 0x6000000B, .request 0, .tick], e.sparesEncoder = true := by
  decide

theorem witness_sendw : (atRest 5).blk.init = true ∧ (atRest 5).blk.busy = false ∧ validCommand 0xa8 = true ∧
    (3#6).toNat < 2 ^ (atRest 5).cfg.stripeWidth ∧
    frameTicks (atRest 5).cfg (frameWord (atRest 5).cfg 0xa8 true true 3) < 51 := by decide

/-- The early ends of SENDW, one state and operand for each status, and of DELAY. -/
theorem witness_early_end : State.reset.blk.init = false ∧
    ((inFrame .bitGap 0 false 15 1 15).blk.init = true ∧ (inFrame .bitGap 0 false 15 1 15).blk.busy = true) ∧
    validCommand 0x11 = false ∧
    (validCommand 0xa0 = true ∧ 2 ^ (atRest 5).cfg.stripeWidth ≤ (4#6).toNat) ∧ (-1#24).toInt < 0 := by decide

/-- A SENDW and a DELAY that end at once, with no poll: fuel 0 is enough. -/
theorem test_early_end :
    sendw 0 0xa0 false false 0 State.reset = .ended (State.reset.refusedWith .notInitialised) ∧
    delay 0 (-1) State.reset = .ended (State.reset.refusedWith .invalidArgument) := by decide

/-- TICK 2 at the last value but one of a 32-bit clock. -/
theorem test_tick_pseudo : tickN 2 (atRest 0xFFFFFFFE) = .ended (atRest 0) := by decide

theorem witness_tick_pseudo : (atRest 0xFFFFFFFE).cfg.legal = true ∧ (atRest 0xFFFFFFFE).rst = false ∧
    (atRest 0xFFFFFFFE).blk.now.toNat < 2 ^ (atRest 0xFFFFFFFE).cfg.clockBits := by decide

theorem witness_delay : (atRest 5).blk.now.toNat < 2 ^ (atRest 5).cfg.clockBits ∧ (0 : Int) ≤ (5#24).toInt ∧
    (5#24).toInt < (6 : Nat) := by decide

/-- The rows of the opcode table hold their fixed bits. -/
theorem witness_opcode_row : Laws.OpcodeRow.Statement (.sendE7 true true 63) :=
  Laws.OpcodeRow.sendE7 true true 63

end Sys2Proof.Tests
end

section
/-! The state elements NOW and INIT over one step (10_state.md R20, R25) and the reset values (R36): what each kind of
event, and any request, does to the block, then the obligations of 10_state.md. -/

namespace Sys2Proof.Machine

/-! ### The block after a step, by the event it takes -/

theorem step_rst_blk {s t : State} {level : Bool} (h : step s = .next t) (he : s.nextEvent = .rst level) :
    t.blk = if level then Block.reset s.cfg else s.blk := by
  obtain ⟨-, -, -, ⟨l, hn, -, hblk⟩ | ⟨hn, -⟩ | ⟨q, hn, -⟩⟩ := step_cases h <;> rw [he] at hn <;> cases hn
  exact hblk

theorem step_tick_blk {s t : State} (h : step s = .next t) (he : s.nextEvent = .tick) :
    t.blk = if s.rst then s.blk else s.blk.tick s.cfg := by
  obtain ⟨-, -, -, ⟨l, hn, -⟩ | ⟨-, -, hblk⟩ | ⟨q, hn, -⟩⟩ := step_cases h
  · rw [he] at hn
    cases hn
  · exact hblk
  · rw [he] at hn
    cases hn

theorem step_request_blk {s t : State} {q : Word} (h : step s = .next t) (he : s.nextEvent = .request q) :
    t.blk = s.blk ∨ ∃ i, decode q = .ok i ∧ exec i s.takeEvent = .next t := by
  obtain ⟨-, -, -, ⟨l, hn, -⟩ | ⟨hn, -⟩ | ⟨q', hn, -, hreq⟩⟩ := step_cases h <;> rw [he] at hn <;> cases hn
  exact hreq.imp_right And.right

/-! ### NOW and INIT after a request -/

/-- No request writes NOW (10_state.md R20). -/
theorem exec_now {i : Instr} {s t : State} (h : exec i s = .next t) : t.blk.now = s.blk.now := by
  obtain ⟨-, -, -, hblk | ⟨-, -, -, hblk⟩ | ⟨d, -, -, -, hblk⟩ | ⟨_, _, _, _, -, -, -, -, -, -, hblk⟩⟩ := exec_cases h
  · rw [hblk]
  · rw [hblk, Block.initialise_now]
  · rw [hblk, Block.armTh_now]
  · rw [hblk, Block.startFrame_now]

/-- The only request that writes INIT is an accepted BEGIN (10_state.md R25). -/
theorem exec_init {i : Instr} {s t : State} (h : exec i s = .next t) :
    t.blk.init = s.blk.init ∨ (i = .beginLine ∧ t.rspStatus = .ok ∧ t.blk.init = true) := by
  obtain ⟨-, -, -, hblk | ⟨hi, -, hok, hblk⟩ | ⟨d, -, -, -, hblk⟩ | ⟨_, _, _, _, -, -, -, -, -, -, hblk⟩⟩ :=
    exec_cases h
  · exact .inl (by rw [hblk])
  · exact .inr ⟨hi, hok, by rw [hblk, Block.initialise_init]⟩
  · exact .inl (by rw [hblk, Block.armTh_init])
  · exact .inl (by rw [hblk, Block.startFrame_init])

/-- Everything BEGIN can do (41_encoder.md R82): it is refused while a frame is in flight, accepted otherwise. -/
theorem exec_beginLine_cases (s : State) :
    (s.blk.busy = true ∧ exec .beginLine s = .next (s.refusedWith .busy)) ∨
    (s.blk.busy = false ∧ exec .beginLine s =
      .next { s with blk := s.blk.initialise s.cfg, rspStatus := .ok, rspData := 0 }) := by
  show (_ ∧ execBegin s = _) ∨ (_ ∧ execBegin s = _)
  unfold execBegin
  cases s.blk.busy with
  | true => simp [raise_eq_refusedWith]
  | false => simp [respond_ok]

theorem exec_beginLine_init {s t : State} (h : exec .beginLine s = .next t) (hok : t.rspStatus = .ok) :
    t.blk.init = true := by
  obtain ⟨-, e⟩ | ⟨-, e⟩ := exec_beginLine_cases s <;> rw [e] at h <;> cases h
  · exact nomatch hok
  · rfl

/-- A request that carries a SEND is refused while INIT is 0, before any other check (60_exceptions.md R127). -/
theorem exec_send_uninitialised {i : Instr} {s : State} (hi : (sendOperands i).isSome) (h0 : s.blk.init = false) :
    exec i s = .next (s.refusedWith .notInitialised) := by
  obtain ⟨⟨cmd, l8, l9, stripe⟩, hops⟩ := Option.isSome_iff_exists.1 hi
  rw [exec_of_sendOperands hops]
  obtain ⟨-, e⟩ | ⟨h1, -⟩ | ⟨h1, -⟩ | ⟨h1, -⟩ | ⟨h1, -⟩ := sendRequest_cases cmd l8 l9 stripe s
  · exact e
  all_goals
    rw [h0] at h1
    cases h1

/-- A step writes INIT only by asserting rst or by an accepted BEGIN (10_state.md R25). -/
theorem step_init {s t : State} (h : step s = .next t) (hne : t.blk.init ≠ s.blk.init) :
    (s.nextEvent = .rst true ∧ t.blk.init = false) ∨
    (∃ q, s.nextEvent = .request q ∧ decode q = .ok .beginLine ∧ t.rspStatus = .ok ∧ t.blk.init = true) := by
  cases he : s.nextEvent with
  | rst level =>
    have hblk := step_rst_blk h he
    cases level with
    | true => exact .inl ⟨rfl, by rw [hblk, if_pos rfl, Block.reset_init]⟩
    | false => exact absurd (by rw [hblk, if_neg Bool.false_ne_true]) hne
  | tick =>
    have hblk := step_tick_blk h he
    refine absurd ?_ hne
    rw [hblk]
    split
    · rfl
    · obtain ⟨-, -, hinit, -⟩ := tick_frame s.cfg s.blk
      exact hinit
  | request q =>
    obtain hblk | ⟨i, hd, hex⟩ := step_request_blk h he
    · exact absurd (by rw [hblk]) hne
    · obtain hkeep | ⟨rfl, hok, hinit⟩ := exec_init hex
      · exact absurd hkeep hne
      · exact .inr ⟨q, rfl, hd, hok, hinit⟩

/-! ### The obligations -/

/-- Settles O30, event by event: the tick's own frame lemma, the reset block, and that no request writes NOW. -/
theorem onlyTicksMoveTheClock : Obligations.OnlyTicksMoveTheClock := by
  intro s t h
  obtain ⟨hl, -⟩ := step_cases h
  refine ⟨fun he hr => ?_, fun he => ?_, fun he => ?_, fun q he => ?_⟩
  · obtain ⟨hnow, -⟩ := tick_frame s.cfg s.blk
    rw [step_tick_blk h he, hr, if_neg Bool.false_ne_true, hnow, clockWrap_toNat hl]
  · rw [step_rst_blk h he, if_pos rfl, Block.reset_now]
  · rw [step_rst_blk h he, if_neg Bool.false_ne_true]
  · obtain hblk | ⟨i, -, hex⟩ := step_request_blk h he
    · rw [hblk]
    · rw [exec_now hex, State.takeEvent_blk]

/-- Settles O38: the reset value, the only writers over a step, and the two requests that INIT concerns. -/
theorem initIsSetByBeginOnly : Obligations.InitIsSetByBeginOnly :=
  ⟨Block.reset_init, fun _ _ => step_init, fun _ _ => exec_beginLine_init, fun _ _ => exec_send_uninitialised⟩

/-- Settles O39: both halves are the definitions of the reset states. -/
theorem resetValues : Obligations.ResetValues :=
  ⟨fun c => State.resetWith_blk c, rfl⟩

end Sys2Proof.Machine
end

section
/-! The output ports as functions of the block's state elements (20_memory.md R40): what line_oe and the wire show. -/

namespace Sys2Proof.Machine

@[simp] theorem State.lineOePort_eq (s : State) : s.lineOePort = s.blk.lineOe := rfl

/-- While the block drives the line, the wire shows LINE: the level the model leaves free does not enter. -/
theorem State.wireAt_of_driven {s : State} (moment : Nat) (hoe : s.blk.lineOe = true) :
    s.wireAt moment = s.blk.line :=
  if_pos hoe

/-- Settles O42: the two ports, one lemma each. -/
theorem linePortFollowsTheState : Obligations.LinePortFollowsTheState :=
  fun s => ⟨s.lineOePort_eq, fun moment hoe => s.wireAt_of_driven moment hoe⟩

end Sys2Proof.Machine
end

section
/-! Request words and their answers (30_encoding.md R53, R58 to R62): what the decoder reads from a word, with the
fields as numbers; which words it rejects; and what each request can be answered with. Then the obligations of
30_encoding.md. -/

namespace Sys2Proof.Machine

/-! ### The formats as numbers -/

theorem readFormatN_eq (q : Word) (i : Instr) :
    readFormatN q i = if q.toNat % 2 ^ 28 = 0 then .ok i else .error .reservedBits := by
  simp only [readFormatN, field_eq_zero_iff, pow_zero, Nat.div_one]

theorem readFormatS_eq (q : Word) :
    readFormatS q = if q.toNat / 2 ^ 16 % 2 ^ 12 = 0 then
      .ok (readSend (BitVec.ofNat 8 q.toNat) (decide (q.toNat / 2 ^ 8 % 2 = 1)) (decide (q.toNat / 2 ^ 9 % 2 = 1))
        (BitVec.ofNat 6 (q.toNat / 2 ^ 10)))
    else .error .reservedBits := by
  simp only [readFormatS, field_eq_zero_iff]
  simp only [field_eq_ofNat, getLsbD_eq_decide, pow_zero, Nat.div_one]

theorem readFormatD_eq (q : Word) :
    readFormatD q = if q.toNat / 2 ^ 24 % 2 ^ 4 = 0 then .ok (.tset (BitVec.ofNat 24 q.toNat))
    else .error .reservedBits := by
  simp only [readFormatD, field_eq_zero_iff]
  simp only [field_eq_ofNat, pow_zero, Nat.div_one]

/-- The numbers 0 to 10 name a view, whose number is again the one read; no other number does (10_state.md R35). -/
theorem viewOf_cases (x : BitVec 4) :
    (x.toNat ≤ 10 ∧ ∃ v, viewOf x = some v ∧ selOf v = x) ∨ (11 ≤ x.toNat ∧ viewOf x = none) := by
  have hx := viewOf_isSome x
  cases hv : viewOf x with
  | some v => exact .inl ⟨by simpa [hv] using hx, v, rfl, selOf_of_viewOf hv⟩
  | none => exact .inr ⟨by simpa [hv, Nat.lt_iff_add_one_le] using hx, rfl⟩

/-- Everything a format R word can be read as. -/
theorem readFormatR_cases (q : Word) :
    (q.toNat / 2 ^ 4 % 2 ^ 24 ≠ 0 ∧ readFormatR q = .error .reservedBits) ∨
    (q.toNat / 2 ^ 4 % 2 ^ 24 = 0 ∧ 11 ≤ q.toNat % 2 ^ 4 ∧ readFormatR q = .error .unknownView) ∨
    (q.toNat / 2 ^ 4 % 2 ^ 24 = 0 ∧ q.toNat % 2 ^ 4 ≤ 10 ∧
      ∃ v, readFormatR q = .ok (.rdstate v) ∧ (selOf v).toNat = q.toNat % 2 ^ 4) := by
  have hsel : (q.extractLsb' 0 4).toNat = q.toNat % 2 ^ 4 := by rw [toNat_field, pow_zero, Nat.div_one]
  simp only [readFormatR, field_eq_zero_iff]
  by_cases hres : q.toNat / 2 ^ 4 % 2 ^ 24 = 0
  · rw [if_pos hres]
    obtain ⟨hle, v, hv, hself⟩ | ⟨hge, hv⟩ := viewOf_cases (q.extractLsb' 0 4)
    · exact .inr (.inr ⟨hres, hsel ▸ hle, v, by rw [hv], by rw [hself, hsel]⟩)
    · exact .inr (.inl ⟨hres, hsel ▸ hge, by rw [hv]⟩)
  · exact .inl ⟨hres, if_neg hres⟩

/-! ### The decoder -/

/-- What the decoder does with each opcode (30_encoding.md R54). -/
theorem decode_cases (q : Word) :
    (q.toNat / 2 ^ 28 = 0 ∧ decode q = readFormatN q .nop) ∨
    (q.toNat / 2 ^ 28 = 1 ∧ decode q = readFormatN q .beginLine) ∨
    (q.toNat / 2 ^ 28 = 2 ∧ decode q = readFormatS q) ∨
    (q.toNat / 2 ^ 28 = 3 ∧ decode q = readFormatD q) ∨
    (q.toNat / 2 ^ 28 = 4 ∧ decode q = readFormatN q .tfin) ∨
    (q.toNat / 2 ^ 28 = 5 ∧ decode q = readFormatN q .talive) ∨
    (q.toNat / 2 ^ 28 = 6 ∧ decode q = readFormatR q) ∨
    (7 ≤ q.toNat / 2 ^ 28 ∧ decode q = .error .reservedOpcode) := by
  simp only [decode, opcode_toNat]
  match q.toNat / 2 ^ 28 with
  | 0 | 1 | 2 | 3 | 4 | 5 | 6 => simp
  | n + 7 => simp

theorem decode_send {q : Word} (hop : q.toNat / 2 ^ 28 = 2) : decode q = readFormatS q := by
  simp only [decode, opcode_toNat, hop]

theorem decode_tset {q : Word} (hop : q.toNat / 2 ^ 28 = 3) : decode q = readFormatD q := by
  simp only [decode, opcode_toNat, hop]

theorem decode_rdstate {q : Word} (hop : q.toNat / 2 ^ 28 = 6) : decode q = readFormatR q := by
  simp only [decode, opcode_toNat, hop]

/-- A reader that only checks its reserved bits rejects a word exactly when the check fails. -/
theorem exists_ite_eq_error {ε α : Type} {p : Prop} [Decidable p] (a : α) (e : ε) :
    (∃ why, (if p then Except.ok a else Except.error e) = Except.error why) ↔ ¬ p := by
  split <;> simp_all

theorem readFormatR_error_iff (q : Word) : (∃ why, readFormatR q = .error why) ↔
    q.toNat / 2 ^ 4 % 2 ^ 24 ≠ 0 ∨ 11 ≤ q.toNat % 2 ^ 4 := by
  obtain ⟨hres, e⟩ | ⟨-, hsel, e⟩ | ⟨hres, hsel, v, e, -⟩ := readFormatR_cases q
  · exact iff_of_true ⟨_, e⟩ (.inl hres)
  · exact iff_of_true ⟨_, e⟩ (.inr hsel)
  · refine iff_of_false ?_ (by omega)
    rintro ⟨why, hwhy⟩
    exact nomatch e.symm.trans hwhy

/-- The decoder rejects exactly the words of R60 (a) to (f), opcode by opcode. -/
theorem decode_error_iff (q : Word) : (∃ why, decode q = .error why) ↔ illegalWord q := by
  unfold illegalWord
  obtain ⟨hop, e⟩ | ⟨hop, e⟩ | ⟨hop, e⟩ | ⟨hop, e⟩ | ⟨hop, e⟩ | ⟨hop, e⟩ | ⟨hop, e⟩ | ⟨hop, e⟩ := decode_cases q <;>
    rw [e]
  · rw [readFormatN_eq, exists_ite_eq_error]
    omega
  · rw [readFormatN_eq, exists_ite_eq_error]
    omega
  · rw [readFormatS_eq, exists_ite_eq_error]
    omega
  · rw [readFormatD_eq, exists_ite_eq_error]
    omega
  · rw [readFormatN_eq, exists_ite_eq_error]
    omega
  · rw [readFormatN_eq, exists_ite_eq_error]
    omega
  · rw [readFormatR_error_iff]
    omega
  · exact iff_of_true ⟨_, rfl⟩ (.inl hop)

/-! ### The operands of a legal word (30_encoding.md R59) -/

theorem decode_send_operands {q : Word} (hlegal : ¬ illegalWord q) (hop : q.toNat / 2 ^ 28 = 2) :
    ∃ i, decode q = .ok i ∧ sendOperands i = some (BitVec.ofNat 8 q.toNat, decide (q.toNat / 2 ^ 8 % 2 = 1),
      decide (q.toNat / 2 ^ 9 % 2 = 1), BitVec.ofNat 6 (q.toNat / 2 ^ 10)) := by
  have hres : q.toNat / 2 ^ 16 % 2 ^ 12 = 0 := by
    unfold illegalWord at hlegal
    omega
  rw [decode_send hop, readFormatS_eq, if_pos hres]
  exact ⟨_, rfl, sendOperands_readSend _ _ _ _⟩

/-- The low 24 bits of a number, read as two's complement. -/
theorem toInt_ofNat_24 (n : Nat) : (BitVec.ofNat 24 n).toInt =
    if n % 2 ^ 24 < 2 ^ 23 then (n % 2 ^ 24 : Int) else (n % 2 ^ 24 : Int) - 2 ^ 24 := by
  rw [BitVec.toInt_eq_toNat_cond, BitVec.toNat_ofNat]
  split <;> split <;> omega

theorem decode_tset_operand {q : Word} (hlegal : ¬ illegalWord q) (hop : q.toNat / 2 ^ 28 = 3) :
    decode q = .ok (.tset (BitVec.ofNat 24 q.toNat)) := by
  have hres : q.toNat / 2 ^ 24 % 2 ^ 4 = 0 := by
    unfold illegalWord at hlegal
    omega
  rw [decode_tset hop, readFormatD_eq, if_pos hres]

theorem decode_rdstate_operand {q : Word} (hlegal : ¬ illegalWord q) (hop : q.toNat / 2 ^ 28 = 6) :
    ∃ v, decode q = .ok (.rdstate v) ∧ (selOf v).toNat = q.toNat % 2 ^ 4 := by
  rw [decode_rdstate hop]
  unfold illegalWord at hlegal
  obtain ⟨hres, -⟩ | ⟨-, hsel, -⟩ | ⟨-, -, hv⟩ := readFormatR_cases q
  · omega
  · omega
  · exact hv

/-! ### The answer to a word that spells no request -/

theorem step_request {s : State} {q : Word} {rest : List Event} (hl : s.cfg.legal = true)
    (hin : s.inputs = .request q :: rest) : step s = serve q { s with inputs := rest } := by
  simp [step, hl, State.nextEvent, State.takeEvent, runEvent, hin]

theorem serve_illegal {q : Word} {s : State} (hr : s.rst = false) (hq : illegalWord q) :
    serve q s = .next (s.refusedWith .illegalOp) := by
  obtain ⟨why, hwhy⟩ := (decode_error_iff q).2 hq
  simp [serve, hr, hwhy, State.answerIllegal, raise_eq_refusedWith]

/-! ### The response of each request (30_encoding.md R53) -/

/-- The column of R53 that says which requests raise a status; no request raises OK or E_ILLEGAL_OP. -/
def Raises (i : Instr) : Status → Prop
  | .ok => False
  | .illegalOp => False
  | .invalidArgument => ∃ d, i = .tset d
  | .invalidCommand => (sendOperands i).isSome
  | .stripeRange => (sendOperands i).isSome
  | .notInitialised => (sendOperands i).isSome
  | .busy => (sendOperands i).isSome ∨ i = .beginLine

/-- The data word of an OK response: the result of the queries, 0 for any other request (30_encoding.md R53). -/
def queryResult (s : State) : Instr → Word
  | .tfin => if s.blk.thFinished s.cfg = true then 1 else 0
  | .talive => if s.blk.th.alive = true then 1 else 0
  | .rdstate v => view s.cfg s.blk v
  | _ => 0

theorem queryResult_eq_zero (s : State) {i : Instr} (hfin : i ≠ .tfin) (halive : i ≠ .talive)
    (hrd : ∀ v, i ≠ .rdstate v) : queryResult s i = 0 := by
  cases i with
  | tfin => exact absurd rfl hfin
  | talive => exact absurd rfl halive
  | rdstate v => exact absurd rfl (hrd v)
  | _ => rfl

theorem queryResult_of_send (s : State) {i : Instr} (hi : (sendOperands i).isSome) : queryResult s i = 0 := by
  refine queryResult_eq_zero s ?_ ?_ ?_
  · rintro rfl
    cases hi
  · rintro rfl
    cases hi
  · rintro v rfl
    cases hi

theorem flag_setWidth (b : Bool) : (BitVec.ofBool b).setWidth 32 = if b = true then 1 else 0 := by
  cases b <;> rfl

/-- Everything TSET can do (40_timer.md R78): a negative duration is refused, any other arms the host timer. -/
theorem exec_tset_cases (d : BitVec 24) (s : State) :
    (d.toInt < 0 ∧ exec (.tset d) s = .next (s.refusedWith .invalidArgument)) ∨
    (0 ≤ d.toInt ∧ exec (.tset d) s =
      .next { s with blk := s.blk.armTh (durationOf d), rspStatus := .ok, rspData := 0 }) := by
  show (_ ∧ execTset d s = _) ∨ (_ ∧ execTset d s = _)
  unfold execTset durationNegative
  by_cases hd : d.toInt < 0
  · simp [hd, raise_eq_refusedWith]
  · simp [hd, respond_ok, Int.not_lt.1 hd]

/-- Every request is refused with a status it raises, or answered OK with its query result. -/
theorem exec_response (i : Instr) (s : State) :
    (∃ e, Raises i e ∧ exec i s = .next (s.refusedWith e)) ∨
    (∃ t, exec i s = .next t ∧ t.rspStatus = .ok ∧ t.rspData = queryResult s i) := by
  cases hops : sendOperands i with
  | some ops =>
    obtain ⟨cmd, l8, l9, stripe⟩ := ops
    have hsend : (sendOperands i).isSome := by rw [hops, Option.isSome_some]
    rw [exec_of_sendOperands hops]
    obtain ⟨-, e⟩ | ⟨-, -, e⟩ | ⟨-, -, -, e⟩ | ⟨-, -, -, -, e⟩ | ⟨-, -, -, -, e⟩ := sendRequest_cases cmd l8 l9 stripe s
    · exact .inl ⟨.notInitialised, hsend, e⟩
    · exact .inl ⟨.busy, .inl hsend, e⟩
    · exact .inl ⟨.invalidCommand, hsend, e⟩
    · exact .inl ⟨.stripeRange, hsend, e⟩
    · exact .inr ⟨_, e, rfl, (queryResult_of_send s hsend).symm⟩
  | none =>
    cases i with
    | nop => exact .inr ⟨_, rfl, rfl, rfl⟩
    | beginLine =>
      obtain ⟨-, e⟩ | ⟨-, e⟩ := exec_beginLine_cases s
      · exact .inl ⟨.busy, .inr rfl, e⟩
      · exact .inr ⟨_, e, rfl, rfl⟩
    | tset d =>
      obtain ⟨-, e⟩ | ⟨-, e⟩ := exec_tset_cases d s
      · exact .inl ⟨.invalidArgument, ⟨d, rfl⟩, e⟩
      · exact .inr ⟨_, e, rfl, rfl⟩
    | tfin => exact .inr ⟨_, rfl, rfl, flag_setWidth _⟩
    | talive => exact .inr ⟨_, rfl, rfl, flag_setWidth _⟩
    | rdstate v => exact .inr ⟨_, rfl, rfl, rfl⟩
    | _ => cases hops

/-! ### The command table (30_encoding.md R62) -/

/-- A command byte is valid when it is the pattern of some entry of the table. -/
theorem validCommand_iff (b : Byte) : validCommand b = true ↔ b ∈ commandTable.map commandByte := by
  simp [validCommand, commandOf, List.find?_isSome]

/-! ### The obligations -/

/-- Settles O3: the decoder's rejections opcode by opcode, and the step that serves such a word. -/
theorem illegalWordsAnswered : Obligations.IllegalWordsAnswered := by
  refine ⟨decode_error_iff, fun s q rest hl hr hin hq => ?_, rfl⟩
  rw [step_request hl hin]
  exact serve_illegal hr hq

/-- Settles O4: one format each, its fields as numbers. -/
theorem operandsOfAWord : Obligations.OperandsOfAWord := by
  intro q hlegal
  refine ⟨decode_send_operands hlegal, fun hop => ?_, decode_rdstate_operand hlegal⟩
  refine ⟨_, decode_tset_operand hlegal hop, toInt_ofNat_24 _, fun hd => ?_⟩
  rw [durationOf_toNat hd, Int.toNat_of_nonneg hd]

/-- Settles O12: a refusal carries a status of R53's column and data 0, an OK response the query result. -/
theorem responseOfEveryRequest : Obligations.ResponseOfEveryRequest := by
  refine ⟨rfl, fun e => by cases e <;> decide, fun i s => ?_, fun q s hr hq => ⟨_, serve_illegal hr hq, rfl, rfl⟩⟩
  obtain ⟨e, hraises, he⟩ | ⟨t, ht, hok, hdata⟩ := exec_response i s
  · refine ⟨_, he, fun _ => rfl, ?_, fun _ _ _ => rfl, ?_, ?_, ?_, ?_⟩ <;>
      simp only [State.refusedWith_rspStatus]
    · rintro rfl
      cases hraises
    · rintro rfl
      cases hraises
    · rintro rfl
      exact hraises
    · rintro (rfl | rfl | rfl) <;> exact hraises
    · rintro rfl
      exact hraises
  · refine ⟨t, ht, fun hne => absurd hok hne, fun _ => ⟨?_, ?_, ?_⟩, fun h1 h2 h3 => ?_, ?_⟩
    · rintro rfl
      exact hdata
    · rintro rfl
      exact hdata
    · rintro v rfl
      exact hdata
    · rw [hdata, queryResult_eq_zero s h1 h2 h3]
    · simp [hok]

/-- Settles O7: validity is membership in the table's patterns, and those are the 17 bytes. -/
theorem validCommandBytes : Obligations.ValidCommandBytes :=
  ⟨validCommand_iff, rfl⟩

end Sys2Proof.Machine
end

section
/-! The timers (10_state.md R21 to R24; 40_timer.md R72 to R80): what the host timer's requests answer, what writes each
timer and NOW over one step, and what holds of the timers over a run. Then the obligations of 40_timer.md. -/

namespace Sys2Proof.Machine

/-! ### Timers -/

/-- A timer just armed is finished only if it was armed for no time at all (40_timer.md R72, R73). -/
theorem finished_armed (c : Config) (now : Word) (d : Duration) : (armed now d).finished c now = decide (d = 0) := by
  simp [Timer.finished, ← BitVec.toNat_inj]

/-- Finished in numbers, for a start that fits the clock (40_timer.md R73). -/
theorem finished_iff {c : Config} (hl : c.legal = true) (now : Word) {t : Timer}
    (hs : t.start.toNat < 2 ^ c.clockBits) : t.finished c now = true ↔ t.alive = true ∧
      t.dur.toNat ≤ (now.toNat + 2 ^ c.clockBits - t.start.toNat) % 2 ^ c.clockBits := by
  simp only [Timer.finished, elapsed_eq hl now t hs, Bool.and_eq_true, decide_eq_true_eq]

/-- The tick that does not wrap a finished timer's elapsed time leaves it finished (40_timer.md R75, R77). -/
theorem finished_tick {c : Config} (hl : c.legal = true) {now : Word} {t : Timer} (hfin : t.finished c now = true)
    (hwrap : t.elapsed c now + 1 < 2 ^ c.clockBits) : t.finished c (clockWrap c (now.toNat + 1)) = true := by
  simp only [Timer.finished, Bool.and_eq_true, decide_eq_true_eq, elapsed_tick hl, Nat.mod_eq_of_lt hwrap] at hfin ⊢
  obtain ⟨halive, hdur⟩ := hfin
  exact ⟨halive, by omega⟩

theorem durationOf_eq_ofNat {d : BitVec 24} (hd : 0 ≤ d.toInt) : durationOf d = BitVec.ofNat 23 d.toInt.toNat := by
  rw [← durationOf_toNat hd, BitVec.ofNat_toNat, BitVec.setWidth_eq]

theorem durationOf_eq_zero_iff {d : BitVec 24} (hd : 0 ≤ d.toInt) : durationOf d = 0 ↔ d = 0 := by
  have hnat := durationOf_toNat hd
  rw [← BitVec.toNat_inj, ← BitVec.toInt_inj, hnat]
  simp only [BitVec.ofNat_eq_ofNat, BitVec.toNat_ofNat, BitVec.toInt_zero, Nat.zero_mod]
  omega

/-! ### The host timer's requests -/

/-- With its opcode given, a format N word is read as its request when it is the format's one word (30_encoding.md
R55). -/
theorem readFormatN_of_opcode {q : Word} {op : Nat} (hop : q.toNat / 2 ^ 28 = op) (i : Instr) :
    readFormatN q i = if q = formatN op then .ok i else .error .reservedBits := by
  have hword : q.toNat % 2 ^ 28 = 0 ↔ q = formatN op := by
    have := q.isLt
    rw [← BitVec.toNat_inj, formatN_toNat op (by omega)]
    omega
  simp only [readFormatN_eq, hword]

theorem decode_tfin {q : Word} (hop : q.toNat / 2 ^ 28 = 4) : decode q = readFormatN q .tfin := by
  simp only [decode, opcode_toNat, hop]

theorem decode_talive {q : Word} (hop : q.toNat / 2 ^ 28 = 5) : decode q = readFormatN q .talive := by
  simp only [decode, opcode_toNat, hop]

theorem exec_tset_of_nonneg {d : BitVec 24} (hd : 0 ≤ d.toInt) (s : State) : exec (.tset d) s =
    .next { s with blk := s.blk.armTh (durationOf d), rspStatus := .ok, rspData := 0 } := by
  obtain ⟨hneg, -⟩ | ⟨-, e⟩ := exec_tset_cases d s
  · omega
  · exact e

theorem exec_tset_of_neg {d : BitVec 24} (hd : d.toInt < 0) (s : State) :
    exec (.tset d) s = .next (s.refusedWith .invalidArgument) := by
  obtain ⟨-, e⟩ | ⟨hnonneg, -⟩ := exec_tset_cases d s
  · exact e
  · omega

/-- TFIN is accepted in every state and writes only the response (40_timer.md R79). -/
theorem exec_tfin (s : State) : exec .tfin s = .next { s with
    rspStatus := .ok
    rspData := if s.blk.th.finished s.cfg s.blk.now = true then 1 else 0 } := by
  show execTfin s = _
  rw [execTfin, respond_ok, flag_setWidth, Block.thFinished]

/-- TALIVE is accepted in every state and writes only the response (40_timer.md R80). -/
theorem exec_talive (s : State) : exec .talive s = .next { s with
    rspStatus := .ok
    rspData := if s.blk.th.alive = true then 1 else 0 } := by
  show execTalive s = _
  rw [execTalive, respond_ok, flag_setWidth]

/-! ### What writes the timers and NOW -/

/-- The only request that writes the host timer is an accepted TSET (10_state.md section 4). -/
theorem exec_th {i : Instr} {s t : State} (h : exec i s = .next t) :
    t.blk.th = s.blk.th ∨
    ∃ d, i = .tset d ∧ 0 ≤ d.toInt ∧ t.rspStatus = .ok ∧ t.blk.th = armed s.blk.now (durationOf d) := by
  obtain ⟨-, -, -, hblk | ⟨-, -, -, hblk⟩ | ⟨d, hi, hd, hok, hblk⟩ | ⟨_, _, _, _, -, -, -, -, -, -, hblk⟩⟩ :=
    exec_cases h
  · exact .inl (by rw [hblk])
  · exact .inl (by rw [hblk, Block.initialise_th])
  · exact .inr ⟨d, hi, hd, hok, by rw [hblk, Block.armTh_th]⟩
  · exact .inl (by rw [hblk, Block.startFrame_th])

/-- A request leaves the encoder timer alone or arms it. -/
theorem exec_te {i : Instr} {s t : State} (h : exec i s = .next t) :
    t.blk.te = s.blk.te ∨ ∃ d, t.blk.te = armed s.blk.now d := by
  obtain ⟨-, -, -, hblk | ⟨-, -, -, hblk⟩ | ⟨d, -, -, -, hblk⟩ | ⟨_, _, _, _, -, -, -, -, -, -, hblk⟩⟩ := exec_cases h
  · exact .inl (by rw [hblk])
  · exact .inl (by rw [hblk, Block.initialise_te])
  · exact .inl (by rw [hblk, Block.armTh_te])
  · exact .inr ⟨_, by rw [hblk, Block.startFrame_te]⟩

/-- A stage transition re-arms the encoder timer, or leaves it alone at the end of the frame (41_encoder.md R87 to
R91). -/
theorem nextStage_te (c : Config) (b : Block) :
    (b.nextStage c).te = b.te ∨ ∃ d, (b.nextStage c).te = armed b.now d := by
  obtain ⟨-, e⟩ | ⟨-, e⟩ | ⟨-, e⟩ | ⟨-, -, e⟩ | ⟨-, -, e⟩ | ⟨-, e⟩ := nextStage_cases c b
  · exact .inr ⟨_, by rw [e, Block.endStartPulse_te]⟩
  · exact .inr ⟨_, by rw [e, Block.endStartGap_te]⟩
  · exact .inr ⟨_, by rw [e, Block.endPulse_te]⟩
  · exact .inr ⟨_, by rw [e, Block.nextSymbol_te]⟩
  · exact .inl (by rw [e, Block.endFrame_te])
  · exact .inl (by rw [e])

/-- A tick leaves the encoder timer alone or arms it at the new NOW. -/
theorem tick_te (c : Config) (b : Block) :
    (b.tick c).te = b.te ∨ ∃ d, (b.tick c).te = armed (clockWrap c (b.now.toNat + 1)) d := by
  obtain ⟨-, e⟩ | ⟨-, -, e⟩ | ⟨-, -, e⟩ := tick_cases c b
  · exact .inl (by rw [e, Block.countTick_te])
  · exact .inl (by rw [e, Block.countTick_te])
  · rw [e]
    exact nextStage_te c (b.countTick c)

/-- Everything a step can do to the block: reset it, nothing, a tick, or what a request does. -/
theorem step_blk {s t : State} (h : step s = .next t) :
    (s.nextEvent = .rst true ∧ t.blk = Block.reset s.cfg) ∨
    t.blk = s.blk ∨
    t.blk = s.blk.tick s.cfg ∨
    (∃ q i, s.nextEvent = .request q ∧ decode q = .ok i ∧ s.rst = false ∧ exec i s.takeEvent = .next t) := by
  obtain ⟨-, -, -, ⟨level, he, -, hblk⟩ | ⟨-, -, hblk⟩ | ⟨q, he, -, hblk | ⟨hr, i, hd, hex⟩⟩⟩ := step_cases h
  · cases level with
    | true => exact .inl ⟨he, hblk⟩
    | false => exact .inr (.inl hblk)
  · rw [hblk]
    split
    · exact .inr (.inl rfl)
    · exact .inr (.inr (.inl rfl))
  · exact .inr (.inl hblk)
  · exact .inr (.inr (.inr ⟨q, i, he, hd, hr, hex⟩))

/-- Everything a step can do to the host timer: nothing, reset it, or arm it by an accepted TSET. -/
theorem step_th {s t : State} (h : step s = .next t) :
    t.blk.th = s.blk.th ∨
    (s.nextEvent = .rst true ∧ t.blk.th = .inert) ∨
    (∃ q d, s.nextEvent = .request q ∧ decode q = .ok (.tset d) ∧ s.rst = false ∧ 0 ≤ d.toInt ∧
      t.rspStatus = .ok ∧ t.blk.th = armed s.blk.now (durationOf d)) := by
  obtain ⟨he, hblk⟩ | hblk | hblk | ⟨q, i, he, hd, hr, hex⟩ := step_blk h
  · exact .inr (.inl ⟨he, by rw [hblk, Block.reset_th]⟩)
  · exact .inl (by rw [hblk])
  · obtain ⟨-, hth, -⟩ := tick_frame s.cfg s.blk
    exact .inl (by rw [hblk, hth])
  · obtain hkeep | ⟨d, rfl, hnonneg, hok, harm⟩ := exec_th hex
    · exact .inl hkeep
    · exact .inr (.inr ⟨q, d, he, hd, hr, hnonneg, hok, harm⟩)

/-- Everything a step can do to the encoder timer: nothing, reset it, or arm it. -/
theorem step_te {s t : State} (h : step s = .next t) :
    t.blk.te = s.blk.te ∨ (s.nextEvent = .rst true ∧ t.blk.te = .inert) ∨ ∃ now d, t.blk.te = armed now d := by
  obtain ⟨he, hblk⟩ | hblk | hblk | ⟨q, i, -, -, -, hex⟩ := step_blk h
  · exact .inr (.inl ⟨he, by rw [hblk, Block.reset_te]⟩)
  · exact .inl (by rw [hblk])
  · rw [hblk]
    exact (tick_te s.cfg s.blk).imp_right fun ⟨d, harm⟩ => .inr ⟨_, d, harm⟩
  · exact (exec_te hex).imp_right fun ⟨d, harm⟩ => .inr ⟨_, d, harm⟩

/-- A step that does not assert rst leaves NOW alone or counts one tick (10_state.md R20). -/
theorem step_now {s t : State} (h : step s = .next t) (hrst : s.nextEvent ≠ .rst true) :
    t.blk.now = s.blk.now ∨ t.blk.now = clockWrap s.cfg (s.blk.now.toNat + 1) := by
  obtain ⟨he, -⟩ | hblk | hblk | ⟨q, i, -, -, -, hex⟩ := step_blk h
  · exact absurd he hrst
  · exact .inl (by rw [hblk])
  · obtain ⟨hnow, -⟩ := tick_frame s.cfg s.blk
    exact .inr (by rw [hblk, hnow])
  · exact .inl (by rw [exec_now hex, State.takeEvent_blk])

/-! ### The timers over one step -/

/-- A timer that is finished stays so over a step that does not assert rst, while its elapsed time does not wrap
(40_timer.md R75). -/
theorem step_keeps_finished {s t : State} (h : step s = .next t) (hrst : s.nextEvent ≠ .rst true) {timer : Timer}
    (hfin : timer.finished s.cfg s.blk.now = true) (hwrap : timer.elapsed s.cfg s.blk.now + 1 < 2 ^ s.cfg.clockBits) :
    timer.finished t.cfg t.blk.now = true := by
  obtain ⟨hl, hcfg, -⟩ := step_cases h
  rw [hcfg]
  obtain hnow | hnow := step_now h hrst <;> rw [hnow]
  · exact hfin
  · exact finished_tick hl hfin hwrap

/-- No event but the assertion of rst disarms the host timer (40_timer.md R75). -/
theorem step_keeps_th_alive {s t : State} (h : step s = .next t) (hrst : s.nextEvent ≠ .rst true)
    (halive : s.blk.th.alive = true) : t.blk.th.alive = true := by
  obtain hkeep | ⟨he, -⟩ | ⟨q, d, -, -, -, -, -, harm⟩ := step_th h
  · rw [hkeep, halive]
  · exact absurd he hrst
  · rw [harm, armed_alive]

/-- No event but the assertion of rst disarms the encoder timer (40_timer.md R75). -/
theorem step_keeps_te_alive {s t : State} (h : step s = .next t) (hrst : s.nextEvent ≠ .rst true)
    (halive : s.blk.te.alive = true) : t.blk.te.alive = true := by
  obtain hkeep | ⟨he, -⟩ | ⟨now, d, harm⟩ := step_te h
  · rw [hkeep, halive]
  · exact absurd he hrst
  · rw [harm, armed_alive]

/-- Nothing but an accepted TSET arms the host timer (40_timer.md R80). -/
theorem step_keeps_th_inert {s t : State} (h : step s = .next t) (hacc : s.accepts Instr.isTset = false)
    (halive : s.blk.th.alive = false) : t.blk.th.alive = false := by
  obtain hkeep | ⟨-, hinert⟩ | ⟨q, d, he, hd, hr, -, hok, -⟩ := step_th h
  · rw [hkeep, halive]
  · rw [hinert, Timer.inert_alive]
  · have hyes := (accepts_iff Instr.isTset s).2 ⟨q, .tset d, t, he, hd, hr, rfl, h, hok⟩
    exact nomatch hacc.symm.trans hyes

/-! ### Runs -/

/-- Every request is answered with a next state. -/
theorem exec_total (i : Instr) (s : State) : ∃ t, exec i s = .next t := by
  obtain ⟨e, -, h⟩ | ⟨t, h, -⟩ := exec_response i s
  · exact ⟨_, h⟩
  · exact ⟨t, h⟩

/-- In a legal configuration every event has a next state. -/
theorem step_total {s : State} (hl : s.cfg.legal = true) : ∃ t, step s = .next t := by
  rw [step, if_pos hl]
  cases s.nextEvent with
  | tick => exact ⟨_, rfl⟩
  | rst level => exact ⟨_, rfl⟩
  | request q =>
    simp only [runEvent, serve]
    split
    · exact ⟨_, rfl⟩
    · split
      · exact exec_total _ _
      · exact ⟨_, rfl⟩

/-- In a legal configuration the machine runs any number of steps, and what each step keeps, counting the steps still
to come, holds at the end. -/
theorem exists_runsTo_of_step {P : Nat → State → Prop}
    (hstep : ∀ n s t, step s = .next t → P (n + 1) s → P n t) {n : Nat} {s : State} (hl : s.cfg.legal = true)
    (hs : P n s) : ∃ u, RunsTo n s u ∧ P 0 u := by
  induction n generalizing s with
  | zero => exact ⟨s, rfl, hs⟩
  | succ n ih =>
    obtain ⟨t, ht⟩ := step_total hl
    obtain ⟨-, hcfg, -⟩ := step_cases ht
    obtain ⟨u, hrun, hu⟩ := ih (hcfg ▸ hl) (hstep n s t ht hs)
    exact ⟨u, ⟨t, ht, hrun⟩, hu⟩

/-- When no listed event asserts rst, neither does the next event: an exhausted list gives ticks (log entry 1). -/
theorem nextEvent_ne_rst {s : State} (hes : ∀ e ∈ s.inputs, e.sparesReset = true) : s.nextEvent ≠ .rst true := by
  unfold State.nextEvent
  cases hin : s.inputs with
  | nil => exact nofun
  | cons e es =>
    rintro rfl
    exact nomatch hes (.rst true) (hin ▸ List.mem_cons_self)

/-- While no TSET is accepted a host timer that is not armed stays so (40_timer.md R80). -/
theorem exists_runsTo_th_inert {n : Nat} {s : State} (hl : s.cfg.legal = true) (halive : s.blk.th.alive = false)
    (havoid : avoids Instr.isTset n s = true) : ∃ u, RunsTo n s u ∧ u.blk.th.alive = false := by
  obtain ⟨u, hrun, hu, -⟩ := exists_runsTo_of_step
    (P := fun n s => s.blk.th.alive = false ∧ avoids Instr.isTset n s = true)
    (fun n s t h ⟨hs, hav⟩ =>
      have ⟨hacc, hrest⟩ := (avoids_succ h).1 hav
      ⟨step_keeps_th_inert h hacc hs, hrest⟩)
    hl ⟨halive, havoid⟩
  exact ⟨u, hrun, hu⟩

/-- While rst is not asserted an armed host timer stays armed (40_timer.md R75, R80). -/
theorem exists_runsTo_th_alive (n : Nat) {s : State} (hl : s.cfg.legal = true) (halive : s.blk.th.alive = true)
    (hes : ∀ e ∈ s.inputs, e.sparesReset = true) : ∃ u, RunsTo n s u ∧ u.blk.th.alive = true := by
  obtain ⟨u, hrun, hu, -⟩ := exists_runsTo_of_step
    (P := fun _ s => s.blk.th.alive = true ∧ ∀ e ∈ s.inputs, e.sparesReset = true)
    (fun n s t h ⟨hs, hin⟩ =>
      have ⟨_, _, htail, _⟩ := step_cases h
      ⟨step_keeps_th_alive h (nextEvent_ne_rst hin) hs, fun e he => hin e (List.mem_of_mem_tail (htail ▸ he))⟩)
    hl ⟨halive, hes⟩
  exact ⟨u, hrun, hu⟩

/-! ### The obligations -/

/-- Settles O36: what writes each timer, and one finished-timer lemma for both. -/
theorem timersAreNeverDisarmed : Obligations.TimersAreNeverDisarmed := by
  intro s t h hrst
  refine ⟨step_keeps_th_alive h hrst, step_keeps_te_alive h hrst, fun hth hfin hwrap => ?_, fun hte hfin hwrap => ?_⟩
  · rw [Block.thFinished, hth]
    exact step_keeps_finished h hrst hfin hwrap
  · rw [Block.teFinished, hte]
    exact step_keeps_finished h hrst hfin hwrap

/-- Settles O18: the two answers of TSET, the timer just armed, and format D. -/
theorem tsetArmsTheHostTimer : Obligations.TsetArmsTheHostTimer := by
  refine ⟨fun d s hd => ?_, fun d s hd => exec_tset_of_neg hd s, fun d s t hd h => ?_, fun q hop => ?_⟩
  · rw [exec_tset_of_nonneg hd, durationOf_eq_ofNat hd, Block.armTh, armed]
  · rw [exec_tset_of_nonneg hd] at h
    cases h
    calc
      (armed s.blk.now (durationOf d)).finished s.cfg s.blk.now
      _ = decide (durationOf d = 0) := finished_armed _ _ _
      _ = decide (d = 0) := decide_eq_decide.2 (durationOf_eq_zero_iff hd)
  · rw [decode_tset hop, readFormatD_eq]

/-- Settles O19: the answer of TFIN, its elapsed time in numbers, and its one word. -/
theorem tfinReadsFinished : Obligations.TfinReadsFinished := by
  refine ⟨fun s hl _ hstart => ?_, fun s => ⟨_, exec_tfin s⟩, fun q hop => ?_⟩
  · simp only [exec_tfin, finished_iff hl _ hstart]
  · rw [decode_tfin hop]
    exact readFormatN_of_opcode hop .tfin

/-- Settles O20: the answer of TALIVE, its one word, and the two runs of the host timer's ALIVE. -/
theorem taliveReadsAlive : Obligations.TaliveReadsAlive := by
  refine ⟨exec_talive, fun q hop => ?_, fun s es hl hreset havoid => ?_, fun d s t h hok => ?_,
    fun s es hl halive hes => ?_⟩
  · rw [decode_talive hop]
    exact readFormatN_of_opcode hop .talive
  · have hinert : s.blk.th.alive = false := by rw [hreset, Block.reset_th, Timer.inert_alive]
    obtain ⟨u, hrun, hu⟩ := exists_runsTo_th_inert (s := { s with inputs := es }) hl hinert havoid
    exact ⟨u, hrun, by rw [exec_talive, hu, if_neg Bool.false_ne_true]⟩
  · obtain ⟨-, e⟩ | ⟨-, e⟩ := exec_tset_cases d s <;> rw [e] at h <;> cases h
    · exact nomatch hok
    · rfl
  · obtain ⟨u, hrun, hu⟩ := exists_runsTo_th_alive es.length (s := { s with inputs := es }) hl halive hes
    exact ⟨u, hrun, by rw [exec_talive, hu, if_pos rfl]⟩

end Sys2Proof.Machine
end

section
/-! The encoder (41_encoder.md R82 to R91): what BEGIN and SEND answer, the frame word as a number, and the block after
a tick, stage by stage. Then the obligations of 41_encoder.md. -/

namespace Sys2Proof.Machine

/-! ### BEGIN and SEND -/

theorem decode_beginLine {q : Word} (hop : q.toNat / 2 ^ 28 = 1) : decode q = readFormatN q .beginLine := by
  simp only [decode, opcode_toNat, hop]

theorem exec_beginLine_of_idle {s : State} (hbusy : s.blk.busy = false) : exec .beginLine s =
    .next { s with blk := s.blk.initialise s.cfg, rspStatus := .ok, rspData := 0 } := by
  obtain ⟨hb, -⟩ | ⟨-, e⟩ := exec_beginLine_cases s
  · exact nomatch hbusy.symm.trans hb
  · exact e

theorem exec_beginLine_of_busy {s : State} (hbusy : s.blk.busy = true) :
    exec .beginLine s = .next (s.refusedWith .busy) := by
  obtain ⟨-, e⟩ | ⟨hb, -⟩ := exec_beginLine_cases s
  · exact e
  · exact nomatch hbusy.symm.trans hb

/-- An initialised block with no frame in flight already holds all that BEGIN writes: INIT and LINE_OE agree and the
line is idle (10_state.md R32 b, c). -/
theorem Block.initialise_eq_self {c : Config} {b : Block} (hinv : b.Inv c) (hinit : b.init = true)
    (hbusy : b.busy = false) : b.initialise c = b := by
  have hoe : b.lineOe = true := hinv.initIsOe.symm.trans hinit
  obtain ⟨hline, -⟩ := hinv.quiet hbusy
  cases b
  cases hinit
  cases hoe
  cases hline
  rfl

/-- SEND's checks in their order, and the frame when all of them pass (41_encoder.md R83; 60_exceptions.md R127). -/
theorem exec_send_eq {i : Instr} {cmd : Byte} {l8 l9 : Bool} {stripe : BitVec 6}
    (hops : sendOperands i = some (cmd, l8, l9, stripe)) (s : State) : exec i s = .next (
      if s.blk.init = false then s.refusedWith .notInitialised
      else if s.blk.busy = true then s.refusedWith .busy
      else if validCommand cmd = false then s.refusedWith .invalidCommand
      else if 2 ^ s.cfg.stripeWidth ≤ stripe.toNat then s.refusedWith .stripeRange
      else { s with
        blk := s.blk.startFrame s.cfg (frameWord s.cfg cmd l8 l9 stripe)
        rspStatus := .ok
        rspData := 0 }) := by
  rw [exec_of_sendOperands hops]
  obtain ⟨h1, e⟩ | ⟨h1, h2, e⟩ | ⟨h1, h2, h3, e⟩ | ⟨h1, h2, h3, h4, e⟩ | ⟨h1, h2, h3, h4, e⟩ :=
    sendRequest_cases cmd l8 l9 stripe s <;> rw [e]
  · simp [h1]
  · simp [h1, h2]
  · simp [h1, h2, h3]
  · have hlarge : 2 ^ s.cfg.stripeWidth ≤ stripe.toNat := by simpa [stripeFits] using h4
    simp [h1, h2, h3, hlarge]
  · have hfits : stripe.toNat < 2 ^ s.cfg.stripeWidth := by simpa [stripeFits] using h4
    simp [h1, h2, h3, hfits]

/-- A format S word reads as the SEND of its operands unless a reserved bit is set (30_encoding.md R56, R60). -/
theorem decode_send_cases {q : Word} (hop : q.toNat / 2 ^ 28 = 2) :
    if q.toNat / 2 ^ 16 % 2 ^ 12 = 0 then
      ∃ i, decode q = .ok i ∧
        sendOperands i = some (BitVec.ofNat 8 q.toNat, decide (q.toNat / 2 ^ 8 % 2 = 1),
          decide (q.toNat / 2 ^ 9 % 2 = 1), BitVec.ofNat 6 (q.toNat / 2 ^ 10))
    else decode q = .error .reservedBits := by
  rw [decode_send hop, readFormatS_eq]
  split
  · exact ⟨_, rfl, sendOperands_readSend _ _ _ _⟩
  · rfl

/-! ### The frame word -/

/-- Putting `y`, of `k` bits, below `x`, of `j` bits: the numbers add, and the word has `j + k` bits. -/
theorem toNat_shiftLeft_or_and_lt {n j k : Nat} {x y : BitVec n} (hx : x.toNat < 2 ^ j) (hy : y.toNat < 2 ^ k)
    (hn : j + k ≤ n) :
    (x <<< k ||| y).toNat = x.toNat * 2 ^ k + y.toNat ∧ (x <<< k ||| y).toNat < 2 ^ (j + k) := by
  have hsum : x.toNat * 2 ^ k + y.toNat < 2 ^ (j + k) := by
    have hmul : (x.toNat + 1) * 2 ^ k ≤ 2 ^ j * 2 ^ k := Nat.mul_le_mul_right _ hx
    rw [Nat.add_one_mul, ← Nat.pow_add] at hmul
    omega
  have hroom : x.toNat * 2 ^ k < 2 ^ n := by
    have : 2 ^ (j + k) ≤ 2 ^ n := Nat.pow_le_pow_right (by decide) hn
    omega
  have heq : (x <<< k ||| y).toNat = x.toNat * 2 ^ k + y.toNat := by
    rw [BitVec.toNat_or, BitVec.toNat_shiftLeft, Nat.shiftLeft_eq, Nat.mod_eq_of_lt hroom, Nat.mul_comm,
      Nat.two_pow_add_eq_or_of_lt hy]
  exact ⟨heq, heq ▸ hsum⟩

theorem flagWord_toNat (b : Bool) : (flagWord b).toNat = b.toNat := by
  cases b <;> rfl

/-- The frame word as a number and its width, put together field by field from the stripe upwards (30_encoding.md
R66). -/
theorem frameWord_toNat_and_lt {c : Config} (hl : c.legal = true) (cmd : Byte) (l8 l9 : Bool) {stripe : BitVec 6}
    (hfits : stripe.toNat < 2 ^ c.stripeWidth) :
    (frameWord c cmd l8 l9 stripe).toNat = cmd.toNat * 2 ^ (2 + c.stripeWidth) + l8.toNat * 2 ^ (1 + c.stripeWidth) +
      l9.toNat * 2 ^ c.stripeWidth + stripe.toNat ∧
    (frameWord c cmd l8 l9 stripe).toNat < 2 ^ frameLen c := by
  obtain ⟨⟨-, hwidth⟩, -⟩ := legal_bounds hl
  have hstripe : (stripe.setWidth 16).toNat = stripe.toNat := BitVec.toNat_setWidth_of_le (by decide)
  have hcmd : (cmd.setWidth 16).toNat = cmd.toNat := BitVec.toNat_setWidth_of_le (by decide)
  have hflag (b : Bool) : (flagWord b).toNat < 2 ^ 1 := flagWord_toNat b ▸ b.toNat_lt
  obtain ⟨h9, lt9⟩ := toNat_shiftLeft_or_and_lt (hflag l9) (hstripe.symm ▸ hfits) (by omega)
  obtain ⟨h8, lt8⟩ := toNat_shiftLeft_or_and_lt (hflag l8) lt9 (by omega)
  obtain ⟨hword, ltword⟩ := toNat_shiftLeft_or_and_lt (hcmd.symm ▸ cmd.isLt) lt8 (by omega)
  have hshift : 2 + c.stripeWidth = 1 + (1 + c.stripeWidth) := by omega
  have hlen : frameLen c = 8 + (1 + (1 + c.stripeWidth)) := by
    unfold frameLen
    omega
  rw [frameWord, BitVec.or_assoc, BitVec.or_assoc, hshift, hlen]
  refine ⟨?_, ltword⟩
  rw [hword, h8, h9, hcmd, hstripe, flagWord_toNat, flagWord_toNat, ← Nat.add_assoc, ← Nat.add_assoc]

/-! ### The block after a tick -/

/-- A tick only counts while no frame is in flight or the stage's timer has not finished (41_encoder.md R86). -/
theorem tick_of_not_due {c : Config} {b : Block}
    (h : b.busy = false ∨ b.te.finished c (clockWrap c (b.now.toNat + 1)) = false) : b.tick c = b.countTick c := by
  obtain ⟨-, e⟩ | ⟨-, -, e⟩ | ⟨hbusy, hfin, -⟩ := tick_cases c b
  · exact e
  · exact e
  · rcases h with h | h
    · exact nomatch h.symm.trans hbusy
    · exact nomatch h.symm.trans hfin

/-- A tick at which the stage's timer is finished makes the phase's transition (41_encoder.md R86). -/
theorem tick_of_due {c : Config} {b : Block} (hbusy : b.busy = true)
    (hfin : b.te.finished c (clockWrap c (b.now.toNat + 1)) = true) : b.tick c = (b.countTick c).nextStage c := by
  obtain ⟨h, -⟩ | ⟨-, h, -⟩ | ⟨-, -, e⟩ := tick_cases c b
  · exact nomatch h.symm.trans hbusy
  · exact nomatch h.symm.trans hfin
  · exact e

theorem nextStage_startActive (c : Config) {b : Block} (h : b.phase = .startActive) :
    b.nextStage c = b.endStartPulse c := by
  simp only [Block.nextStage, h]

theorem nextStage_startGap (c : Config) {b : Block} (h : b.phase = .startGap) : b.nextStage c = b.endStartGap c := by
  simp only [Block.nextStage, h]

theorem nextStage_bitActive (c : Config) {b : Block} (h : b.phase = .bitActive) : b.nextStage c = b.endPulse c := by
  simp only [Block.nextStage, h]

/-- The index of a frame's last symbol (00_scope.md R8). -/
theorem frameLen_pred (c : Config) : frameLen c - 1 = 9 + c.stripeWidth := by
  unfold frameLen
  omega

theorem nextStage_bitGap_of_lt {c : Config} {b : Block} (h : b.phase = .bitGap)
    (hidx : b.idx.toNat < 9 + c.stripeWidth) : b.nextStage c = b.nextSymbol c := by
  simp only [Block.nextStage, h, frameLen_pred, if_pos hidx]

theorem nextStage_bitGap_of_le {c : Config} {b : Block} (h : b.phase = .bitGap)
    (hidx : 9 + c.stripeWidth ≤ b.idx.toNat) : b.nextStage c = b.endFrame := by
  simp only [Block.nextStage, h, frameLen_pred, if_neg (Nat.not_lt.2 hidx)]

/-- The bit of the frame word that the first symbol's duration is read from (30_encoding.md R66; 41_encoder.md R85). -/
theorem symbolDur_zero (c : Config) (w : FrameWord) :
    symbolDur c w 0 = if w.getLsbD (9 + c.stripeWidth) then c.tLong else c.tTiny := by
  rw [symbolDur, symbolOf, frameLen_pred, Nat.sub_zero]

/-- The bit of the frame word that a later symbol's duration is read from. -/
theorem symbolDur_succ (c : Config) (w : FrameWord) (k : Nat) :
    symbolDur c w (k + 1) = if w.getLsbD (8 + c.stripeWidth - k) then c.tLong else c.tTiny := by
  rw [symbolDur, symbolOf, frameLen_pred, show 9 + c.stripeWidth - (k + 1) = 8 + c.stripeWidth - k by omega]

/-! ### The obligations -/

/-- Settles O22: the two answers of BEGIN, what the invariant says of a second one, and its one word. -/
theorem beginInitialisesTheLine : Obligations.BeginInitialisesTheLine := by
  refine ⟨fun s hbusy => exec_beginLine_of_idle hbusy, fun s hbusy => exec_beginLine_of_busy hbusy,
    fun s hinv hinit hbusy => ?_, fun q hop => ?_⟩
  · rw [exec_beginLine_of_idle hbusy, Block.initialise_eq_self hinv.blk hinit hbusy]
  · rw [decode_beginLine hop]
    exact readFormatN_of_opcode hop .beginLine

/-- Settles O23: the first check that fails decides, and the frame is started when none does. -/
theorem sendStartsAFrame : Obligations.SendStartsAFrame := by
  refine ⟨fun i cmd l8 l9 stripe s hops => ?_, fun q hop => decode_send_cases hop⟩
  rw [exec_send_eq hops]
  refine ⟨fun hinit hbusy hcmd hfits => ?_, fun hinit => ?_, fun hinit hbusy => ?_, fun hinit hbusy hcmd => ?_,
    fun hinit hbusy hcmd hlarge => ?_⟩
  · rw [if_neg (ne_false_of_eq_true hinit), if_neg (ne_true_of_eq_false hbusy), if_neg (ne_false_of_eq_true hcmd),
      if_neg (Nat.not_le.2 hfits)]
    rfl
  · rw [if_pos hinit]
  · rw [if_neg (ne_false_of_eq_true hinit), if_pos hbusy]
  · rw [if_neg (ne_false_of_eq_true hinit), if_neg (ne_true_of_eq_false hbusy), if_pos hcmd]
  · rw [if_neg (ne_false_of_eq_true hinit), if_neg (ne_true_of_eq_false hbusy), if_neg (ne_false_of_eq_true hcmd),
      if_pos hlarge]

/-- Settles O25: the fields share no bit, so the word is their sum. -/
theorem frameWordIsTheConcatenation : Obligations.FrameWordIsTheConcatenation :=
  fun _ cmd l8 l9 _ hl hfits => frameWord_toNat_and_lt hl cmd l8 l9 hfits

/-- Settles O31: the tick of the block, then the transition of each phase. -/
theorem tickStages : Obligations.TickStages := by
  rintro s now hl hr he rfl
  refine ⟨_, step_tick hl hr he, fun hidle => ?_, fun hfin => ?_⟩
  · refine tick_of_not_due ?_
    rcases hidle with hp | hp | hfin
    · exact .inl (by rw [Block.busy, hp, Phase.busy])
    · exact .inl (by rw [Block.busy, hp, Phase.busy])
    · exact .inr hfin
  · have hdue (hbusy : s.blk.phase.busy = true) : s.blk.tick s.cfg = (s.blk.countTick s.cfg).nextStage s.cfg :=
      tick_of_due hbusy hfin
    refine ⟨fun hp => ?_, fun hp => ?_, fun hp => ?_, fun hp hidx => ?_, fun hp hidx => ?_⟩
    · exact (hdue (hp ▸ rfl)).trans (nextStage_startActive _ hp)
    · rw [← symbolDur_zero]
      exact (hdue (hp ▸ rfl)).trans (nextStage_startGap _ hp)
    · exact (hdue (hp ▸ rfl)).trans (nextStage_bitActive _ hp)
    · rw [← symbolDur_succ]
      exact (hdue (hp ▸ rfl)).trans (nextStage_bitGap_of_lt hp hidx)
    · exact (hdue (hp ▸ rfl)).trans (nextStage_bitGap_of_le hp hidx)

end Sys2Proof.Machine
end

section
/-! The control requests (43_control.md R116, R117): what NOP and RDSTATE answer, and the fields of each register view
as numbers (10_state.md R35). Then the obligations of 43_control.md. -/

namespace Sys2Proof.Machine

/-! ### NOP and RDSTATE -/

theorem decode_nop {q : Word} (hop : q.toNat / 2 ^ 28 = 0) : decode q = readFormatN q .nop := by
  simp only [decode, opcode_toNat, hop]

/-- NOP is accepted in every state and writes only the response (43_control.md R116). -/
theorem exec_nop (s : State) : exec .nop s = .next { s with rspStatus := .ok, rspData := 0 } := by
  show execNop s = _
  rw [execNop, respond_ok]

/-- RDSTATE is accepted in every state and writes only the response (43_control.md R117). -/
theorem exec_rdstate (v : View) (s : State) :
    exec (.rdstate v) s = .next { s with rspStatus := .ok, rspData := view s.cfg s.blk v } := by
  show execRdstate v s = _
  rw [execRdstate, respond_ok]

/-- A format R word reads as the RDSTATE of its view unless a reserved bit is set or its number names no view
(30_encoding.md R58, R60). -/
theorem decode_rdstate_cases {q : Word} (hop : q.toNat / 2 ^ 28 = 6) :
    if q.toNat / 2 ^ 4 % 2 ^ 24 = 0 ∧ q.toNat % 2 ^ 4 ≤ 10 then
      ∃ v, decode q = .ok (.rdstate v) ∧ (selOf v).toNat = q.toNat % 2 ^ 4
    else ∃ why, decode q = .error why := by
  rw [decode_rdstate hop]
  obtain ⟨hres, e⟩ | ⟨-, hsel, e⟩ | ⟨hres, hsel, hv⟩ := readFormatR_cases q
  · rw [if_neg fun ⟨h, _⟩ => hres h]
    exact ⟨_, e⟩
  · rw [if_neg (by omega)]
    exact ⟨_, e⟩
  · rw [if_pos ⟨hres, hsel⟩]
    exact hv

/-! ### The views as numbers -/

/-- A field put above a word of `n` bits counts `2 ^ n` times. -/
theorem toNat_append_eq_add {m n : Nat} (x : BitVec m) (y : BitVec n) :
    (x ++ y).toNat = x.toNat * 2 ^ n + y.toNat := by
  rw [BitVec.toNat_append, Nat.shiftLeft_eq, Nat.mul_comm, Nat.two_pow_add_eq_or_of_lt y.isLt]

/-- BUSY, said of the phase (10_state.md R31). -/
theorem busy_eq_decide (p : Phase) : p.busy = decide (p ≠ .idle ∧ p ≠ .done) := by
  cases p <;> rfl

/-- DONE, said of the phase (10_state.md R31). -/
theorem isDone_eq_decide (b : Block) : b.isDone = decide (b.phase = .done) := by
  rw [Block.isDone, beq_eq_decide]

/-- View 0: INIT, BUSY, DONE, LINE and LINE_OE from bit 0 upwards. -/
theorem viewStatus_toNat (b : Block) : (viewStatus b).toNat =
    b.init.toNat + 2 * b.busy.toNat + 4 * b.isDone.toNat + 8 * b.line.toNat + 16 * b.lineOe.toNat := by
  simp only [viewStatus, toNat_append_eq_add, BitVec.toNat_ofBool, BitVec.toNat_ofNat]
  omega

/-- Views 4 and 7: ALIVE at bit 0, finished at bit 1. -/
theorem viewTimerFlags_toNat (c : Config) (now : Word) (t : Timer) :
    (viewTimerFlags c now t).toNat = t.alive.toNat + 2 * (t.finished c now).toNat := by
  simp only [viewTimerFlags, toNat_append_eq_add, BitVec.toNat_ofBool, BitVec.toNat_ofNat]
  omega

/-- View 8: PHASE from bit 0, IDX from bit 8. -/
theorem viewSeq_toNat (b : Block) : (viewSeq b).toNat = b.phase.code.toNat + 2 ^ 8 * b.idx.toNat := by
  simp only [viewSeq, toNat_append_eq_add, BitVec.toNat_ofNat]
  omega

/-- View 10: STRIPE_WIDTH, IDLE_LEVEL, FRAME_LEN and CLOCK_BITS. In a legal configuration each fits its field. -/
theorem viewConfig_toNat {c : Config} (hl : c.legal = true) : (viewConfig c).toNat =
    c.stripeWidth + 2 ^ 4 * c.idleLevel.toNat + 2 ^ 8 * (10 + c.stripeWidth) + 2 ^ 16 * c.clockBits := by
  obtain ⟨⟨-, hwidth⟩, ⟨-, hclock⟩, -⟩ := legal_bounds hl
  simp only [viewConfig, frameLen, toNat_append_eq_add, BitVec.toNat_ofBool, BitVec.toNat_ofNat]
  omega

/-! ### The obligations -/

/-- Settles O16: the answer of NOP, and its one word, the zero word. -/
theorem nopDoesNothing : Obligations.NopDoesNothing := by
  refine ⟨exec_nop, fun q hop => ?_⟩
  rw [decode_nop hop]
  exact readFormatN_of_opcode hop .nop

/-- Settles O17: RDSTATE answers the view's word, and each view is taken apart into its fields. -/
theorem rdstateReadsTheViews : Obligations.RdstateReadsTheViews := by
  refine ⟨fun v s => ⟨_, exec_rdstate v s, fun hl => ?_⟩, fun q hop => decode_rdstate_cases hop, rfl, rfl⟩
  cases v with
  | status =>
    rw [← busy_eq_decide, ← isDone_eq_decide]
    exact viewStatus_toNat s.blk
  | now => rfl
  | thStart => rfl
  | thDur => exact BitVec.toNat_setWidth_of_le (by decide)
  | thFlags => exact viewTimerFlags_toNat s.cfg s.blk.now s.blk.th
  | teStart => rfl
  | teDur => exact BitVec.toNat_setWidth_of_le (by decide)
  | teFlags => exact viewTimerFlags_toNat s.cfg s.blk.now s.blk.te
  | seq => exact viewSeq_toNat s.blk
  | frame => exact BitVec.toNat_setWidth_of_le (by decide)
  | config => exact viewConfig_toNat hl

end Sys2Proof.Machine
end

section
/-! The errors of the requests (60_exceptions.md R119, R127): what serving a word can answer, that a refusal writes
nothing, and which error a request reports first. Then the obligations of 60_exceptions.md. -/

namespace Sys2Proof.Machine

/-! ### Serving a word -/

/-- With rst released, a word that spells a request is executed (20_memory.md R44). -/
theorem serve_of_decode {q : Word} {i : Instr} {s : State} (hr : s.rst = false) (hd : decode q = .ok i) :
    serve q s = exec i s := by
  simp [serve, hr, hd]

/-- With rst released, every word is refused, or answered OK. -/
theorem serve_response (q : Word) {s : State} (hr : s.rst = false) :
    (∃ e, serve q s = .next (s.refusedWith e)) ∨ (∃ t, serve q s = .next t ∧ t.rspStatus = .ok) := by
  cases hd : decode q with
  | error why => exact .inl ⟨.illegalOp, serve_illegal hr ((decode_error_iff q).1 ⟨why, hd⟩)⟩
  | ok i =>
    rw [serve_of_decode hr hd]
    obtain ⟨e, -, he⟩ | ⟨t, ht, hok, -⟩ := exec_response i s
    · exact .inl ⟨e, he⟩
    · exact .inr ⟨t, ht, hok⟩

/-! ### The request that a word without reserved bits runs -/

/-- A SEND word runs a request that carries its operands (30_encoding.md R56). -/
theorem serve_send {q : Word} {s : State} (hr : s.rst = false) (hop : q.toNat / 2 ^ 28 = 2)
    (hres : q.toNat / 2 ^ 16 % 2 ^ 12 = 0) :
    ∃ i, serve q s = exec i s ∧ sendOperands i = some (BitVec.ofNat 8 q.toNat, decide (q.toNat / 2 ^ 8 % 2 = 1),
      decide (q.toNat / 2 ^ 9 % 2 = 1), BitVec.ofNat 6 (q.toNat / 2 ^ 10)) := by
  have hsend := decode_send_cases hop
  rw [if_pos hres] at hsend
  obtain ⟨i, hd, hops⟩ := hsend
  exact ⟨i, serve_of_decode hr hd, hops⟩

theorem serve_beginLine {q : Word} {s : State} (hr : s.rst = false) (hop : q.toNat / 2 ^ 28 = 1)
    (hres : q.toNat % 2 ^ 28 = 0) : serve q s = exec .beginLine s :=
  serve_of_decode hr (by rw [decode_beginLine hop, readFormatN_eq, if_pos hres])

theorem serve_tset {q : Word} {s : State} (hr : s.rst = false) (hop : q.toNat / 2 ^ 28 = 3)
    (hres : q.toNat / 2 ^ 24 % 2 ^ 4 = 0) : serve q s = exec (.tset (BitVec.ofNat 24 q.toNat)) s :=
  serve_of_decode hr (by rw [decode_tset hop, readFormatD_eq, if_pos hres])

/-- Bit 23 is the sign of a TSET operand (30_encoding.md R59). -/
theorem toInt_ofNat_24_neg {n : Nat} (hsign : 2 ^ 23 ≤ n % 2 ^ 24) : (BitVec.ofNat 24 n).toInt < 0 := by
  rw [toInt_ofNat_24, if_neg (Nat.not_lt.2 hsign)]
  omega

/-- A legal word with the opcode of NOP, TFIN, TALIVE or RDSTATE is answered OK: none of the four raises an error. -/
theorem serve_query_ok {q : Word} {s : State} (hr : s.rst = false) (hlegal : ¬ illegalWord q)
    (hop : q.toNat / 2 ^ 28 = 0 ∨ q.toNat / 2 ^ 28 = 4 ∨ q.toNat / 2 ^ 28 = 5 ∨ q.toNat / 2 ^ 28 = 6) :
    ∃ t, serve q s = .next t ∧ t.rspStatus = .ok := by
  have hformatN (i : Instr) (hne : q.toNat / 2 ^ 28 ≠ 6) : readFormatN q i = .ok i := by
    unfold illegalWord at hlegal
    rw [readFormatN_eq, if_pos (by omega)]
  obtain hop | hop | hop | hop := hop
  · have hd := (decode_nop hop).trans (hformatN .nop (by omega))
    exact ⟨_, (serve_of_decode hr hd).trans (exec_nop s), rfl⟩
  · have hd := (decode_tfin hop).trans (hformatN .tfin (by omega))
    exact ⟨_, (serve_of_decode hr hd).trans (exec_tfin s), rfl⟩
  · have hd := (decode_talive hop).trans (hformatN .talive (by omega))
    exact ⟨_, (serve_of_decode hr hd).trans (exec_talive s), rfl⟩
  · obtain ⟨v, hd, -⟩ := decode_rdstate_operand hlegal hop
    exact ⟨_, (serve_of_decode hr hd).trans (exec_rdstate v s), rfl⟩

/-! ### The obligations -/

/-- Settles O13: an answer that is not OK is that of a refusal, which only the ports and the record differ in. -/
theorem refusedRequestWritesNothing : Obligations.RefusedRequestWritesNothing := by
  intro q s t hr h hne
  obtain ⟨e, he⟩ | ⟨u, hu, hok⟩ := serve_response q hr
  · cases he.symm.trans h
    exact ⟨rfl, rfl, rfl⟩
  · cases hu.symm.trans h
    exact absurd hok hne

/-- Settles O14: a reserved bit makes the word illegal; without one the request's own checks decide, in their order.
The last sentence is R32 (a). -/
theorem errorPriority : Obligations.ErrorPriority := by
  refine ⟨fun q s hr hop => ⟨fun hres => ?_, fun hres => ?_⟩,
    fun q s hr hop => ⟨fun hres => ?_, fun hres hbusy => ?_⟩,
    fun q s hr hop => ⟨fun hres => ?_, fun hres hsign => ?_⟩,
    fun q s t hr hop h => ⟨fun hillegal => ?_, fun hlegal => ?_⟩, fun s hinv ⟨hinit, hbusy⟩ => ?_⟩
  · exact serve_illegal hr (.inr (.inr (.inl ⟨hop, hres⟩)))
  · obtain ⟨i, hserve, hops⟩ := serve_send hr hop hres
    obtain ⟨hexec, -⟩ := sendStartsAFrame
    obtain ⟨-, hrefused⟩ := hexec i _ _ _ _ s hops
    rw [hserve, ← BitVec.toNat_ofNat]
    exact hrefused
  · exact serve_illegal hr (.inr (.inl ⟨.inr (.inl hop), hres⟩))
  · rw [serve_beginLine hr hop hres, exec_beginLine_of_busy hbusy]
  · exact serve_illegal hr (.inr (.inr (.inr (.inl ⟨hop, hres⟩))))
  · rw [serve_tset hr hop hres, exec_tset_of_neg (toInt_ofNat_24_neg hsign)]
  · cases (serve_illegal hr hillegal).symm.trans h
    rfl
  · obtain ⟨u, hu, hok⟩ := serve_query_ok hr hlegal hop
    cases hu.symm.trans h
    exact hok
  · obtain ⟨hinit', -⟩ := hinv.blk.driven hbusy
    exact nomatch hinit.symm.trans hinit'

end Sys2Proof.Machine
end

section
/-! Reset (70_reset_and_hazards.md R136, R137): the step on a level of rst, the block while rst is asserted, the encoder
at rest until an accepted SEND, and that nothing but reset stops a frame in flight before its end. Then the obligations
of 70_reset_and_hazards.md. -/

namespace Sys2Proof.Machine

/-! ### The levels of rst -/

theorem step_rst {s : State} {level : Bool} (hl : s.cfg.legal = true) (he : s.nextEvent = .rst level) :
    step s = .next (s.takeEvent.setRst level) := by
  rw [step, if_pos hl, he, runEvent]

/-- While rst is asserted, any event but its release leaves it asserted and the block at its reset values. -/
theorem step_held {s t : State} (h : step s = .next t) (hrst : s.rst = true) (he : s.nextEvent ≠ .rst false)
    (hblk : s.blk = Block.reset s.cfg) : t.rst = true ∧ t.blk = Block.reset s.cfg := by
  obtain ⟨-, -, -, ⟨level, hn, hr, hb⟩ | ⟨-, hr, hb⟩ | ⟨q, -, hr, hb | ⟨hr0, -⟩⟩⟩ := step_cases h
  · cases level with
    | true => exact ⟨hr, hb⟩
    | false => exact absurd hn he
  · rw [if_pos hrst] at hb
    exact ⟨hr.trans hrst, hb.trans hblk⟩
  · exact ⟨hr.trans hrst, hb.trans hblk⟩
  · exact nomatch hr0.symm.trans hrst

/-- No frame is in flight at reset, so a tick only counts: NOW becomes 1. -/
theorem tick_reset {c : Config} (hl : c.legal = true) : (Block.reset c).tick c = { Block.reset c with now := 1 } := by
  have hone : clockWrap c 1 = 1 := by
    have hclock := le_clock hl
    have hfits : (1 : Word).toNat < 2 ^ c.clockBits := by
      rw [show (1 : Word).toNat = 1 from rfl]
      omega
    exact clockWrap_of_fits hfits
  calc
    (Block.reset c).tick c
    _ = (Block.reset c).countTick c := tick_of_not_due (.inl rfl)
    _ = { Block.reset c with now := clockWrap c 1 } := rfl
    _ = { Block.reset c with now := 1 } := by rw [hone]

/-! ### The encoder at rest -/

/-- Nothing of a frame is left in the block: the phase, the frame register and the line as reset leaves them. -/
structure Block.AtRest (c : Config) (b : Block) : Prop where
  phase : b.phase = .idle
  frame : b.frame = 0
  line : b.line = c.idleLevel

theorem Block.AtRest.reset (c : Config) : (Block.reset c).AtRest c :=
  ⟨Block.reset_phase c, Block.reset_frame c, Block.reset_line c⟩

theorem Block.AtRest.tick {c : Config} {b : Block} (h : b.AtRest c) : (b.tick c).AtRest c := by
  have hidle : b.busy = false := by rw [Block.busy, h.phase, Phase.busy]
  rw [tick_of_not_due (.inl hidle)]
  exact ⟨h.phase, h.frame, h.line⟩

/-- Only an accepted SEND takes the encoder out of rest. -/
theorem exec_atRest {i : Instr} {s t : State} (h : exec i s = .next t) (hs : s.blk.AtRest s.cfg) :
    t.blk.AtRest s.cfg ∨ (Instr.isSend i = true ∧ t.rspStatus = .ok) := by
  obtain ⟨-, -, -, hblk | ⟨-, -, -, hblk⟩ | ⟨d, -, -, -, hblk⟩ | ⟨_, _, _, _, hops, -, -, -, -, hok, -⟩⟩ := exec_cases h
  · exact .inl (hblk ▸ hs)
  · exact .inl (hblk ▸ ⟨hs.phase, hs.frame, Block.initialise_line _ _⟩)
  · exact .inl (hblk ▸ ⟨hs.phase, hs.frame, hs.line⟩)
  · exact .inr ⟨by rw [Instr.isSend, hops, Option.isSome_some], hok⟩

/-- The only request that writes LINE_OE is an accepted BEGIN (10_state.md R26). -/
theorem exec_lineOe {i : Instr} {s t : State} (h : exec i s = .next t) :
    t.blk.lineOe = s.blk.lineOe ∨ (Instr.isBegin i = true ∧ t.rspStatus = .ok) := by
  obtain ⟨-, -, -, hblk | ⟨hi, -, hok, -⟩ | ⟨d, -, -, -, hblk⟩ | ⟨_, _, _, _, -, -, -, -, -, -, hblk⟩⟩ := exec_cases h
  · exact .inl (by rw [hblk])
  · exact .inr ⟨by rw [hi, Instr.isBegin], hok⟩
  · exact .inl (by rw [hblk, Block.armTh_lineOe])
  · exact .inl (by rw [hblk, Block.startFrame_lineOe])

/-- Everything a step can do to the block while no request that `p` holds of is accepted: reset it, nothing, a tick, or
a request that is refused or that `p` does not hold of. -/
theorem step_blk_of_not_accepts {p : Instr → Bool} {s t : State} (h : step s = .next t) (hacc : s.accepts p = false) :
    t.blk = Block.reset s.cfg ∨ t.blk = s.blk ∨ t.blk = s.blk.tick s.cfg ∨
    ∃ i, exec i s.takeEvent = .next t ∧ ¬ (p i = true ∧ t.rspStatus = .ok) := by
  obtain ⟨-, hblk⟩ | hblk | hblk | ⟨q, i, he, hd, hr, hex⟩ := step_blk h
  · exact .inl hblk
  · exact .inr (.inl hblk)
  · exact .inr (.inr (.inl hblk))
  · refine .inr (.inr (.inr ⟨i, hex, fun ⟨hp, hok⟩ => ?_⟩))
    exact nomatch hacc.symm.trans ((accepts_iff p s).2 ⟨q, i, t, he, hd, hr, hp, h, hok⟩)

theorem step_keeps_atRest {s t : State} (h : step s = .next t) (hacc : s.accepts Instr.isSend = false)
    (hs : s.blk.AtRest s.cfg) : t.blk.AtRest s.cfg := by
  obtain hblk | hblk | hblk | ⟨i, hex, hno⟩ := step_blk_of_not_accepts h hacc
  · exact hblk ▸ Block.AtRest.reset s.cfg
  · exact hblk ▸ hs
  · exact hblk ▸ hs.tick
  · exact (exec_atRest hex hs).resolve_right hno

theorem step_keeps_undriven {s t : State} (h : step s = .next t) (hacc : s.accepts Instr.isBegin = false)
    (hs : s.blk.lineOe = false) : t.blk.lineOe = false := by
  obtain hblk | hblk | hblk | ⟨i, hex, hno⟩ := step_blk_of_not_accepts h hacc
  · rw [hblk, Block.reset_lineOe]
  · rw [hblk, hs]
  · obtain ⟨-, -, -, hoe⟩ := tick_frame s.cfg s.blk
    rw [hblk, hoe, hs]
  · exact ((exec_lineOe hex).resolve_right hno).trans hs

/-- What every step keeps that accepts no request `p` holds of, a run that avoids such requests keeps. -/
theorem exists_runsTo_of_avoids {p : Instr → Bool} {Q : State → Prop}
    (hstep : ∀ s t, step s = .next t → s.accepts p = false → Q s → Q t) {n : Nat} {s : State}
    (hl : s.cfg.legal = true) (hs : Q s) (havoid : avoids p n s = true) : ∃ u, RunsTo n s u ∧ Q u := by
  obtain ⟨u, hrun, hu, -⟩ := exists_runsTo_of_step (P := fun n s => Q s ∧ avoids p n s = true)
    (fun n s t h ⟨hs, hav⟩ =>
      have ⟨hacc, hrest⟩ := (avoids_succ h).1 hav
      ⟨hstep s t h hacc hs, hrest⟩)
    hl ⟨hs, havoid⟩
  exact ⟨u, hrun, hu⟩

/-- Until an accepted SEND the encoder stays at rest. -/
theorem exists_runsTo_atRest {n : Nat} {s : State} (hl : s.cfg.legal = true) (hs : s.blk.AtRest s.cfg)
    (havoid : avoids Instr.isSend n s = true) : ∃ u, RunsTo n s u ∧ u.blk.AtRest s.cfg := by
  obtain ⟨u, hrun, -, hu⟩ := exists_runsTo_of_avoids (Q := fun u => u.cfg = s.cfg ∧ u.blk.AtRest s.cfg)
    (fun v t h hacc ⟨hc, hv⟩ =>
      have ⟨_, hcfg, _⟩ := step_cases h
      ⟨hcfg.trans hc, hc ▸ step_keeps_atRest h hacc (hc.symm ▸ hv)⟩)
    hl ⟨rfl, hs⟩ havoid
  exact ⟨u, hrun, hu⟩

/-- Until an accepted BEGIN an undriven line stays undriven. -/
theorem exists_runsTo_undriven {n : Nat} {s : State} (hl : s.cfg.legal = true) (hs : s.blk.lineOe = false)
    (havoid : avoids Instr.isBegin n s = true) : ∃ u, RunsTo n s u ∧ u.blk.lineOe = false :=
  exists_runsTo_of_avoids (Q := fun u => u.blk.lineOe = false) (fun _ _ => step_keeps_undriven) hl hs havoid

/-! ### A frame in flight -/

/-- BEGIN and SEND are refused while a frame is in flight, so no request ends it. -/
theorem exec_keeps_busy {i : Instr} {s t : State} (h : exec i s = .next t) (hbusy : s.blk.busy = true) :
    t.blk.busy = true := by
  obtain ⟨-, -, -, hblk | ⟨-, hidle, -⟩ | ⟨d, -, -, -, hblk⟩ | ⟨_, _, _, _, -, -, hidle, -⟩⟩ := exec_cases h
  · rw [hblk, hbusy]
  · exact nomatch hidle.symm.trans hbusy
  · rw [hblk, Block.busy, Block.armTh_phase]
    exact hbusy
  · exact nomatch hidle.symm.trans hbusy

/-- Every stage transition leads to a stage of the frame, but for the one that ends the last symbol's gap. -/
theorem nextStage_busy_or_done {c : Config} {b : Block} (hbusy : b.busy = true) : (b.nextStage c).busy = true ∨
    (b.phase = .bitGap ∧ frameLen c - 1 ≤ b.idx.toNat ∧ (b.nextStage c).phase = .done) := by
  obtain ⟨-, e⟩ | ⟨-, e⟩ | ⟨-, e⟩ | ⟨-, -, e⟩ | ⟨hp, hlast, e⟩ | ⟨hidle, -⟩ := nextStage_cases c b
  · exact .inl (e ▸ rfl)
  · exact .inl (e ▸ rfl)
  · exact .inl (e ▸ rfl)
  · exact .inl (e ▸ rfl)
  · exact .inr ⟨hp, hlast, e ▸ rfl⟩
  · exact nomatch hidle.symm.trans hbusy

theorem tick_busy_or_done {c : Config} {b : Block} (hinv : b.Inv c) (hbusy : b.busy = true) :
    (b.tick c).busy = true ∨ (b.phase = .bitGap ∧ b.idx.toNat = frameLen c - 1 ∧ (b.tick c).phase = .done) := by
  obtain ⟨-, e⟩ | ⟨-, -, e⟩ | ⟨-, -, e⟩ := tick_cases c b <;> rw [e]
  · exact .inl hbusy
  · exact .inl hbusy
  · obtain hstage | ⟨hp, hlast, hdone⟩ := nextStage_busy_or_done (c := c) (b := b.countTick c) hbusy
    · exact .inl hstage
    · rw [Block.countTick_phase] at hp
      rw [Block.countTick_idx] at hlast
      have hlt := hinv.idxInFrame (.inr hp)
      exact .inr ⟨hp, by omega, hdone⟩

/-- Nothing but reset stops a frame before the end of its last gap (70_reset_and_hazards.md R137). -/
theorem step_busy_or_done {s t : State} (hinv : s.Inv) (hbusy : s.blk.busy = true) (hrst : s.nextEvent ≠ .rst true)
    (h : step s = .next t) : t.blk.busy = true ∨
    (s.nextEvent = .tick ∧ s.blk.phase = .bitGap ∧ s.blk.idx.toNat = frameLen s.cfg - 1 ∧ t.blk.phase = .done) := by
  cases he : s.nextEvent with
  | rst level =>
    cases level with
    | true => exact absurd he hrst
    | false =>
      rw [step_rst_blk h he, if_neg Bool.false_ne_true]
      exact .inl hbusy
  | tick =>
    rw [step_tick_blk h he]
    split
    · exact .inl hbusy
    · exact (tick_busy_or_done hinv.blk hbusy).imp_right fun hend => ⟨rfl, hend⟩
  | request q =>
    obtain hblk | ⟨i, -, hex⟩ := step_request_blk h he
    · exact .inl (hblk ▸ hbusy)
    · exact .inl (exec_keeps_busy hex hbusy)

/-! ### The obligations -/

/-- Settles O40: the step on each level of rst, the block held meanwhile, and a tick of the reset block. -/
theorem resetHoldsTheBlock : Obligations.ResetHoldsTheBlock := by
  refine ⟨fun s hl he => ⟨_, step_rst hl he, rfl, rfl⟩, fun s hl hrst he hblk => ?_,
    fun s hl he => ⟨_, step_rst hl he, rfl, rfl⟩, fun s t hl hrst hblk he h => ?_⟩
  · obtain ⟨t, ht⟩ := step_total hl
    exact ⟨t, ht, step_held ht hrst he hblk⟩
  · rw [step_tick_blk h he, hrst, if_neg Bool.false_ne_true, hblk, tick_reset hl]

/-- Settles O41: the reset block is at rest with its line undriven, each kept until its own request is accepted, over
the one run there is; and a frame in flight goes on over every other step. -/
theorem resetEndsTheFrame : Obligations.ResetEndsTheFrame := by
  refine ⟨fun s t es hl he _ h => ?_, fun _ _ => step_busy_or_done⟩
  obtain ⟨-, hcfg, -⟩ := step_cases h
  have hreset : t.blk = Block.reset t.cfg := by rw [step_rst_blk h he, if_pos rfl, hcfg]
  have hlegal : t.cfg.legal = true := hcfg ▸ hl
  have hrest : t.blk.AtRest t.cfg := hreset ▸ Block.AtRest.reset t.cfg
  have hoe : t.blk.lineOe = false := by rw [hreset, Block.reset_lineOe]
  refine ⟨hoe, hrest.phase, fun hsend => ?_⟩
  obtain ⟨u, hrun, hu⟩ := exists_runsTo_atRest (s := { t with inputs := es }) hlegal hrest hsend
  refine ⟨u, hrun, hu.phase, hu.frame, hcfg ▸ hu.line, fun hbegin => ?_⟩
  obtain ⟨v, hrun', hv⟩ := exists_runsTo_undriven (s := { t with inputs := es }) hlegal hoe hbegin
  rw [runsTo_unique hrun hrun', hv]

end Sys2Proof.Machine
end

section
/-! Encoding and decoding as inverses (30_encoding.md sections 3 and 5), the assembler's words (section 8) and the bits
of the command table (R63). -/

namespace Sys2Proof.Machine

/-! ### The word of a request and the request of a word -/

/-- Every constructor that carries a SEND is encoded in format S (30_encoding.md R56). -/
theorem encode_of_sendOperands {i : Instr} {cmd : Byte} {l8 l9 : Bool} {stripe : BitVec 6}
    (hops : sendOperands i = some (cmd, l8, l9, stripe)) : encode i = formatS cmd l8 l9 stripe := by
  cases i <;> cases hops <;> rfl

/-- The operands of a well-formed SEND are read back as the constructor they came from (log entry 7). -/
theorem readSend_of_sendOperands {i : Instr} {cmd : Byte} {l8 l9 : Bool} {stripe : BitVec 6}
    (hwf : i.wellFormed = true) (hops : sendOperands i = some (cmd, l8, l9, stripe)) :
    readSend cmd l8 l9 stripe = i := by
  cases i <;> cases hops
  case send =>
    have hnone : commandOf cmd = none := by simpa [Instr.wellFormed, validCommand] using hwf
    rw [readSend, hnone]
  all_goals rfl

/-- Whichever constructor a SEND word is read as, it is well formed. -/
theorem wellFormed_readSend (cmd : Byte) (l8 l9 : Bool) (stripe : BitVec 6) :
    (readSend cmd l8 l9 stripe).wellFormed = true := by
  unfold readSend
  cases hk : commandOf cmd with
  | some k => cases k <;> rfl
  | none => simp [Instr.wellFormed, validCommand, hk]

theorem encode_readSend (cmd : Byte) (l8 l9 : Bool) (stripe : BitVec 6) :
    encode (readSend cmd l8 l9 stripe) = formatS cmd l8 l9 stripe :=
  encode_of_sendOperands (sendOperands_readSend cmd l8 l9 stripe)

/-- An RDSTATE word reads as the RDSTATE of its view. -/
theorem decode_formatR (v : View) : decode (formatR (selOf v)) = .ok (.rdstate v) := by
  cases v <;> rfl

/-- A format S word with reserved bits 0 is put together from its fields (30_encoding.md R56). -/
theorem formatS_of_fields {q : Word} (hop : q.toNat / 2 ^ 28 = 2) (hres : q.toNat / 2 ^ 16 % 2 ^ 12 = 0) :
    formatS (BitVec.ofNat 8 q.toNat) (decide (q.toNat / 2 ^ 8 % 2 = 1)) (decide (q.toNat / 2 ^ 9 % 2 = 1))
      (BitVec.ofNat 6 (q.toNat / 2 ^ 10)) = q := by
  have hbit (n : Nat) : (decide (n % 2 = 1)).toNat = n % 2 := by
    rcases Nat.mod_two_eq_zero_or_one n with h | h <;> simp [h]
  rw [← BitVec.toNat_inj, formatS_toNat, hbit, hbit, BitVec.toNat_ofNat, BitVec.toNat_ofNat]
  omega

/-- A format D word with reserved bits 0 is put together from its operand (30_encoding.md R57). -/
theorem formatD_of_fields {q : Word} (hop : q.toNat / 2 ^ 28 = 3) (hres : q.toNat / 2 ^ 24 % 2 ^ 4 = 0) :
    formatD (BitVec.ofNat 24 q.toNat) = q := by
  rw [← BitVec.toNat_inj, formatD_toNat, BitVec.toNat_ofNat]
  omega

/-- A format R word with reserved bits 0 is put together from its view's number (30_encoding.md R58). -/
theorem formatR_of_fields {q : Word} {sel : BitVec 4} (hop : q.toNat / 2 ^ 28 = 6)
    (hres : q.toNat / 2 ^ 4 % 2 ^ 24 = 0) (hsel : sel.toNat = q.toNat % 2 ^ 4) : formatR sel = q := by
  rw [← BitVec.toNat_inj, formatR_toNat]
  omega

/-- A reader that only checks its reserved bits gives the one request it reads. -/
theorem ite_eq_ok_iff {ε α : Type} {p : Prop} [Decidable p] {a b : α} {e : ε} :
    (if p then Except.ok a else Except.error e) = Except.ok b ↔ p ∧ a = b := by
  split <;> simp_all

/-- The one word of a request of format N (30_encoding.md R55). -/
theorem wellFormed_and_encode_of_formatN {q : Word} {op : Nat} {i j : Instr} (hop : q.toNat / 2 ^ 28 = op)
    (hwf : j.wellFormed = true) (henc : encode j = formatN op) (h : readFormatN q j = .ok i) :
    i.wellFormed = true ∧ encode i = q := by
  rw [readFormatN_of_opcode hop, ite_eq_ok_iff] at h
  obtain ⟨rfl, rfl⟩ := h
  exact ⟨hwf, henc⟩

/-- Settles O1: a SEND by its operands, whatever its constructor; any other request by its own format. -/
theorem decodeOfEncode : Obligations.DecodeOfEncode := by
  intro i hwf
  cases hops : sendOperands i with
  | some ops =>
    obtain ⟨cmd, l8, l9, stripe⟩ := ops
    rw [encode_of_sendOperands hops, decode_formatS, readSend_of_sendOperands hwf hops]
  | none =>
    cases i with
    | nop => rfl
    | beginLine => rfl
    | tset d => exact decode_formatD d
    | tfin => rfl
    | talive => rfl
    | rdstate v => exact decode_formatR v
    | _ => cases hops

/-- Settles O2, opcode by opcode: with the reserved bits 0 a word is put together from its fields again. -/
theorem encodeOfDecode : Obligations.EncodeOfDecode := by
  intro q i h
  obtain ⟨hop, e⟩ | ⟨hop, e⟩ | ⟨hop, e⟩ | ⟨hop, e⟩ | ⟨hop, e⟩ | ⟨hop, e⟩ | ⟨hop, e⟩ | ⟨hop, e⟩ := decode_cases q <;>
    rw [e] at h
  · exact wellFormed_and_encode_of_formatN hop rfl rfl h
  · exact wellFormed_and_encode_of_formatN hop rfl rfl h
  · rw [readFormatS_eq, ite_eq_ok_iff] at h
    obtain ⟨hres, rfl⟩ := h
    exact ⟨wellFormed_readSend _ _ _ _, (encode_readSend _ _ _ _).trans (formatS_of_fields hop hres)⟩
  · rw [readFormatD_eq, ite_eq_ok_iff] at h
    obtain ⟨hres, rfl⟩ := h
    exact ⟨rfl, formatD_of_fields hop hres⟩
  · exact wellFormed_and_encode_of_formatN hop rfl rfl h
  · exact wellFormed_and_encode_of_formatN hop rfl rfl h
  · obtain ⟨-, e⟩ | ⟨-, -, e⟩ | ⟨hres, -, v, e, hsel⟩ := readFormatR_cases q <;> rw [e] at h <;> cases h
    exact ⟨rfl, formatR_of_fields hop hres hsel⟩
  · cases h

end Sys2Proof.Machine
end

section
/-! The assembler's words as their shifted operands put together (30_encoding.md section 8), words of the test vectors,
and the bits of the command table (30_encoding.md R63). -/

namespace Sys2Proof.Machine

/-! ### Words put together from shifted operands -/

/-- A field of `w` bits put at bit `lo` of a word whose bits below `lo + w` are 0 adds its shifted number. -/
theorem toNat_or_field {x : Word} {m lo w : Nat} (hx : 2 ^ (lo + w) ∣ x.toNat) (hm : m < 2 ^ w) (hw : lo + w ≤ 32) :
    (x ||| BitVec.ofNat 32 m <<< lo).toNat = x.toNat + m * 2 ^ lo := by
  have hfield : m * 2 ^ lo < 2 ^ (lo + w) := by
    rw [Nat.pow_add, Nat.mul_comm]
    exact Nat.mul_lt_mul_of_pos_left hm (Nat.two_pow_pos lo)
  have hroom : 2 ^ (lo + w) ≤ 2 ^ 32 := Nat.pow_le_pow_right (by decide) hw
  have hle : m ≤ m * 2 ^ lo := Nat.le_mul_of_pos_right m (Nat.two_pow_pos lo)
  have hnat : (BitVec.ofNat 32 m <<< lo).toNat = m * 2 ^ lo := by
    rw [BitVec.toNat_shiftLeft, BitVec.toNat_ofNat, Nat.mod_eq_of_lt (a := m) (by omega), Nat.shiftLeft_eq,
      Nat.mod_eq_of_lt (by omega)]
  obtain ⟨j, hj⟩ := hx
  rw [BitVec.toNat_or, hnat, hj, Nat.two_pow_add_eq_or_of_lt hfield]

/-- A field put into the low `w` bits, unshifted. -/
theorem toNat_or_low_field {x : Word} {m w : Nat} (hx : 2 ^ w ∣ x.toNat) (hm : m < 2 ^ w) (hw : w ≤ 32) :
    (x ||| BitVec.ofNat 32 m).toNat = x.toNat + m := by
  simpa using toNat_or_field (lo := 0) (by simpa using hx) hm (by omega)

/-- A SEND word as its shifted operands put together (30_encoding.md R69). -/
theorem formatS_eq_or {cmd l8 l9 stripe : Nat} (hcmd : cmd ≤ 255) (h8 : l8 ≤ 1) (h9 : l9 ≤ 1) (hs : stripe ≤ 63) :
    formatS (BitVec.ofNat 8 cmd) (l8 == 1) (l9 == 1) (BitVec.ofNat 6 stripe) =
      0x20000000#32 ||| BitVec.ofNat 32 stripe <<< 10 ||| BitVec.ofNat 32 l9 <<< 9 ||| BitVec.ofNat 32 l8 <<< 8 |||
        BitVec.ofNat 32 cmd := by
  have hflag {l : Nat} (hl : l ≤ 1) : (l == 1).toNat = l := by
    obtain rfl | rfl := Nat.le_one_iff_eq_zero_or_eq_one.1 hl <;> rfl
  rw [← BitVec.toNat_inj, formatS_toNat, hflag h8, hflag h9, BitVec.toNat_ofNat, BitVec.toNat_ofNat]
  have hop : (0x20000000#32).toNat = 2 * 2 ^ 28 := rfl
  have hstripe := toNat_or_field (x := 0x20000000#32) (m := stripe) (lo := 10) (w := 6) (by omega) (by omega)
    (by decide)
  generalize 0x20000000#32 ||| BitVec.ofNat 32 stripe <<< 10 = x at hstripe ⊢
  have hl9 := toNat_or_field (x := x) (m := l9) (lo := 9) (w := 1) (by omega) (by omega) (by decide)
  generalize x ||| BitVec.ofNat 32 l9 <<< 9 = x at hl9 ⊢
  have hl8 := toNat_or_field (x := x) (m := l8) (lo := 8) (w := 1) (by omega) (by omega) (by decide)
  generalize x ||| BitVec.ofNat 32 l8 <<< 8 = x at hl8 ⊢
  have hword := toNat_or_low_field (x := x) (m := cmd) (w := 8) (by omega) (by omega) (by decide)
  omega

/-- A TSET word as its operand modulo `2 ^ 24` put below the opcode (30_encoding.md R69). -/
theorem formatD_eq_or (d : Int) :
    formatD (BitVec.ofInt 24 d) = 0x30000000#32 ||| BitVec.ofNat 32 (d % 2 ^ 24).toNat := by
  rw [← BitVec.toNat_inj, formatD_toNat, BitVec.toNat_ofInt, toNat_or_low_field (w := 24) (by decide) (by omega)
    (by decide)]
  rfl

/-- An RDSTATE word as its number put below the opcode (30_encoding.md R69). -/
theorem formatR_eq_or {sel : Nat} (hsel : sel ≤ 10) :
    formatR (BitVec.ofNat 4 sel) = 0x60000000#32 ||| BitVec.ofNat 32 sel := by
  rw [← BitVec.toNat_inj, formatR_toNat, BitVec.toNat_ofNat, toNat_or_low_field (w := 4) (by decide) (by omega)
    (by decide), Nat.mod_eq_of_lt (by omega)]
  rfl

/-! ### The command table -/

/-- Every command but E7 is its upper nibble above four 0 bits. -/
theorem commandByte_of_ne_e7 {k : Command} (hk : k ≠ .e7) :
    commandByte k = (commandByte k).extractLsb' 4 4 ++ 0#4 := by
  cases k
  case e7 => exact absurd rfl hk
  all_goals rfl

/-- Every nibble above four 0 bits is the pattern of a command. -/
theorem exists_commandOf_nibble : ∀ n : BitVec 4, (commandOf (n ++ 0#4)).isSome = true := by
  decide

theorem existsUnique_command_of_nibble (n : BitVec 4) :
    ∃! k : Command, k ≠ .e7 ∧ (commandByte k).extractLsb' 4 4 = n := by
  obtain ⟨k, hk⟩ := Option.isSome_iff_exists.1 (exists_commandOf_nibble n)
  have hbyte := commandByte_of_commandOf hk
  refine ⟨k, ⟨?_, ?_⟩, fun k' ⟨hne, hn⟩ => ?_⟩
  · rintro rfl
    have hlow := congrArg (BitVec.extractLsb' 0 4) hbyte
    rw [BitVec.extractLsb'_append_eq_right] at hlow
    exact absurd hlow (by decide)
  · rw [hbyte, BitVec.extractLsb'_append_eq_left]
  · have hk' : commandOf (commandByte k') = some k := by rw [commandByte_of_ne_e7 hne, hn, hk]
    rw [commandOf_commandByte] at hk'
    exact Option.some.inj hk'

/-! ### The obligations -/

/-- Settles O5: each format's word in numbers, and the checks of the operands' ranges. -/
theorem assemblerWords : Obligations.AssemblerWords := by
  refine ⟨fun cmd l8 l9 stripe => ?_, fun k l8 l9 stripe => ?_, fun d => ?_, fun sel => ?_, rfl, rfl, rfl, rfl, rfl⟩
  · simp only [assemble, asmByte]
    by_cases hcmd : cmd < 256
    · rw [if_pos hcmd]
      by_cases hrest : l8 ≤ 1 ∧ l9 ≤ 1 ∧ stripe ≤ 63
      · obtain ⟨h8, h9, hs⟩ := hrest
        have hle : cmd ≤ 255 := by omega
        simp only [h8, h9, hs, hle, and_self, if_true, formatS_eq_or]
      · rw [if_neg (fun h => hrest h.2)]
        exact if_neg hrest
    · rw [if_neg hcmd, if_neg (by omega)]
  · simp only [assemble, asmByte, if_pos (commandByte k).isLt, BitVec.ofNat_toNat, BitVec.setWidth_eq]
  · simp only [assemble, formatD_eq_or]
  · simp only [assemble, asmSel]
    split
    · rename_i hsel
      rw [Option.map_some, formatR_eq_or hsel]
    · rfl

/-- Settles O6: the decoder run on each of the nine words. -/
theorem referenceWordsDecode : Obligations.ReferenceWordsDecode := by
  refine ⟨?_, ?_, ?_, ?_, ?_, ?_, ?_, ?_, ?_⟩ <;> decide

/-- Settles O8: a nibble above four 0 bits is one command's pattern; the rest is the table read entry by entry. -/
theorem commandTableBits : Obligations.CommandTableBits := by
  refine ⟨existsUnique_command_of_nibble, rfl, rfl, fun k => ?_, fun k => ?_⟩
  · cases k <;> rfl
  · cases k <;> decide

end Sys2Proof.Machine
end

section
/-! The invariant (10_state.md R32 and the ranges of R19, R29, R30): kept by each stage transition, each tick, each
request and so each step; the conditions of R32 in every reachable state. -/

namespace Sys2Proof.Machine

/-! ### The frame word fits the frame -/

theorem frameWord_lt_of_fits {c : Config} (hl : c.legal = true) (cmd : Byte) (l8 l9 : Bool) {stripe : BitVec 6}
    (hfits : stripeFits c stripe = true) : (frameWord c cmd l8 l9 stripe).toNat < 2 ^ frameLen c := by
  have hlt : stripe.toNat < 2 ^ c.stripeWidth := by simpa [stripeFits] using hfits
  obtain ⟨-, hword⟩ := frameWord_toNat_and_lt hl cmd l8 l9 hlt
  exact hword

theorem activeLevel_ne_idleLevel (c : Config) : activeLevel c ≠ c.idleLevel := by
  simp [activeLevel]

/-- A level is the idle one when it is not the active one (00_scope.md R11). -/
theorem eq_idleLevel_of_ne_activeLevel {c : Config} {l : Level} (h : l ≠ activeLevel c) : l = c.idleLevel := by
  simpa [activeLevel] using h

/-! ### The invariant of the block -/

/-- What a stage of a frame must meet as it begins, its timer just armed for a time that is not 0. -/
theorem Block.Inv.of_stage_begin {c : Config} {b : Block} {d : Duration} (hnow : b.now.toNat < 2 ^ c.clockBits)
    (hth : b.th.start.toNat < 2 ^ c.clockBits) (harm : b.te = armed b.now d) (hd : 1 ≤ d.toNat)
    (hbusy : b.busy = true) (hinit : b.init = true) (hoe : b.lineOe = true)
    (hline : b.line = activeLevel c ↔ b.phase = .startActive ∨ b.phase = .bitActive)
    (hidx : b.phase.inSymbol → b.idx.toNat < frameLen c) (hzero : ¬ b.phase.inSymbol → b.idx = 0)
    (hframe : b.frame.toNat < 2 ^ frameLen c) : b.Inv c where
  nowFits := hnow
  thStartFits := hth
  teStartFits := by rw [harm, armed_start]; exact hnow
  driven := fun _ => ⟨hinit, hoe⟩
  initIsOe := hinit.trans hoe.symm
  quiet := fun hidle => nomatch hidle.symm.trans hbusy
  timed := fun _ => by rw [harm, armed_alive, armed_dur, elapsed_armed]; exact ⟨rfl, hd, hd⟩
  lineLevel := hline
  idxInFrame := hidx
  idxZero := hzero
  frameFits := hframe

theorem not_inSymbol_of_start {p : Phase} (h : p = .startActive ∨ p = .startGap) : ¬ p.inSymbol := by
  rcases h with rfl | rfl <;> rintro (h | h) <;> cases h

/-- The block's invariant at reset (10_state.md R36). -/
theorem Block.Inv.reset (c : Config) : (Block.reset c).Inv c where
  nowFits := Nat.two_pow_pos _
  thStartFits := Nat.two_pow_pos _
  teStartFits := Nat.two_pow_pos _
  driven := nofun
  initIsOe := rfl
  quiet := fun _ => ⟨rfl, rfl, rfl⟩
  timed := nofun
  lineLevel := iff_of_false (activeLevel_ne_idleLevel c).symm (by simp)
  idxInFrame := by simp [Phase.inSymbol]
  idxZero := fun _ => rfl
  frameFits := Nat.two_pow_pos _

section
variable {c : Config} {b : Block}

/-! ### The requests -/

theorem Block.Inv.initialise (h : b.Inv c) (hidle : b.busy = false) : (b.initialise c).Inv c :=
  { h with
    driven := fun hbusy => nomatch hidle.symm.trans hbusy
    initIsOe := rfl
    quiet := fun _ => ⟨rfl, (h.quiet hidle).2⟩
    timed := fun hbusy => nomatch hidle.symm.trans hbusy
    lineLevel := by
      obtain ⟨hline, -⟩ := h.quiet hidle
      rw [Block.initialise_line, Block.initialise_phase, ← hline]
      exact h.lineLevel }

theorem Block.Inv.armTh (h : b.Inv c) (d : Duration) : (b.armTh d).Inv c :=
  { h with thStartFits := h.nowFits }

theorem Block.Inv.startFrame (h : b.Inv c) (hl : c.legal = true) (hinit : b.init = true) {w : FrameWord}
    (hw : w.toNat < 2 ^ frameLen c) : (b.startFrame c w).Inv c := by
  obtain ⟨-, -, ⟨hstart, -⟩, -⟩ := legal_bounds hl
  refine .of_stage_begin h.nowFits h.thStartFits (Block.startFrame_te c w b) hstart rfl hinit
    (h.initIsOe.symm.trans hinit) ?_ (fun hin => absurd hin (not_inSymbol_of_start (.inl rfl))) (fun _ => rfl) hw
  exact iff_of_true rfl (.inl rfl)

/-! ### The tick -/

/-- A count that ends no stage keeps the invariant: a frame in flight has time left. -/
theorem Block.Inv.countTick (h : b.Inv c) (hl : c.legal = true)
    (hnot : b.busy = true → (b.countTick c).teFinished c = false) : (b.countTick c).Inv c :=
  { h with
    nowFits := by
      rw [Block.countTick_now, clockWrap_toNat hl]
      exact Nat.mod_lt _ (Nat.two_pow_pos _)
    timed := fun hbusy => by
      obtain ⟨halive, hdur, -⟩ := h.timed hbusy
      have hfin := hnot hbusy
      rw [Block.teFinished, Block.countTick_te, Timer.finished, halive, Bool.true_and, decide_eq_false_iff_not,
        Nat.not_le] at hfin
      exact ⟨halive, hdur, hfin⟩ }

/-- The stage transition of a frame in flight keeps the invariant, at whatever NOW it is made. -/
theorem Block.Inv.nextStage_countTick (h : b.Inv c) (hl : c.legal = true) (hbusy : b.busy = true) :
    ((b.countTick c).nextStage c).Inv c := by
  obtain ⟨-, -, ⟨-, hstartGap, -, -, hgap⟩, -⟩ := legal_bounds hl
  obtain ⟨hinit, hoe⟩ := h.driven hbusy
  have hlen := frameLen_le hl
  have hnow : (clockWrap c (b.now.toNat + 1)).toNat < 2 ^ c.clockBits := by
    rw [clockWrap_toNat hl]
    exact Nat.mod_lt _ (Nat.two_pow_pos _)
  have hidle : c.idleLevel ≠ activeLevel c := (activeLevel_ne_idleLevel c).symm
  obtain ⟨hp, e⟩ | ⟨hp, e⟩ | ⟨hp, e⟩ | ⟨hp, hidx, e⟩ | ⟨hp, -, e⟩ | ⟨hb, -⟩ := nextStage_cases c (b.countTick c)
  · rw [e]
    refine .of_stage_begin hnow h.thStartFits rfl hstartGap rfl hinit hoe ?_
      (fun hin => absurd hin (not_inSymbol_of_start (.inr rfl)))
      (fun _ => h.idxZero (not_inSymbol_of_start (.inl hp))) h.frameFits
    exact iff_of_false hidle (by simp)
  · rw [e]
    refine .of_stage_begin hnow h.thStartFits rfl (one_le_symbolDur hl _ _) rfl hinit hoe ?_ (fun _ => ?_)
      (fun hnot => absurd (.inl rfl) hnot) h.frameFits
    · exact iff_of_true rfl (.inr rfl)
    · show 0 < frameLen c
      omega
  · rw [e]
    refine .of_stage_begin hnow h.thStartFits rfl hgap rfl hinit hoe ?_ (fun _ => h.idxInFrame (.inl hp))
      (fun hnot => absurd (.inr rfl) hnot) h.frameFits
    exact iff_of_false hidle (by simp)
  · rw [e]
    refine .of_stage_begin hnow h.thStartFits rfl (one_le_symbolDur hl _ _) rfl hinit hoe ?_ (fun _ => ?_)
      (fun hnot => absurd (.inl rfl) hnot) h.frameFits
    · exact iff_of_true rfl (.inr rfl)
    · rw [Block.countTick_idx] at hidx
      rw [Block.nextSymbol_idx, Block.countTick_idx, BitVec.toNat_add, show (1 : BitVec 4).toNat = 1 from rfl]
      omega
  · have hphase : b.phase = .bitGap := hp
    have hline : b.line ≠ activeLevel c := fun hact => by
      have := h.lineLevel.1 hact
      simp [hphase] at this
    rw [e]
    exact { h with
      nowFits := hnow
      driven := nofun
      quiet := fun _ => ⟨eq_idleLevel_of_ne_activeLevel hline, rfl, rfl⟩
      timed := nofun
      lineLevel := iff_of_false hline (by simp)
      idxInFrame := by simp [Phase.inSymbol]
      idxZero := fun _ => rfl
      frameFits := Nat.two_pow_pos _ }
  · exact nomatch hb.symm.trans hbusy

theorem Block.Inv.tick (h : b.Inv c) (hl : c.legal = true) : (b.tick c).Inv c := by
  obtain ⟨hidle, e⟩ | ⟨-, hfin, e⟩ | ⟨hbusy, -, e⟩ := tick_cases c b <;> rw [e]
  · exact h.countTick hl fun hbusy => nomatch hidle.symm.trans hbusy
  · exact h.countTick hl fun _ => hfin
  · exact h.nextStage_countTick hl hbusy

end

/-! ### Steps and runs -/

theorem exec_inv {i : Instr} {s t : State} (h : exec i s = .next t) (hl : s.cfg.legal = true) (hs : s.blk.Inv s.cfg) :
    t.blk.Inv s.cfg := by
  obtain ⟨-, -, -, hblk | ⟨-, hidle, -, hblk⟩ | ⟨d, -, -, -, hblk⟩ |
    ⟨cmd, l8, l9, stripe, -, hinit, -, -, hfits, -, hblk⟩⟩ := exec_cases h <;> rw [hblk]
  · exact hs
  · exact hs.initialise hidle
  · exact hs.armTh _
  · exact hs.startFrame hl hinit (frameWord_lt_of_fits hl cmd l8 l9 hfits)

/-- The block's part of the invariant over a step. -/
theorem step_blk_inv {s t : State} (h : step s = .next t) (hs : s.blk.Inv s.cfg) : t.blk.Inv t.cfg := by
  obtain ⟨hl, hcfg, -⟩ := step_cases h
  rw [hcfg]
  obtain ⟨-, hblk⟩ | hblk | hblk | ⟨q, i, -, -, -, hex⟩ := step_blk h
  · exact hblk ▸ Block.Inv.reset s.cfg
  · exact hblk ▸ hs
  · exact hblk ▸ hs.tick hl
  · exact exec_inv (s := s.takeEvent) hex hl hs

/-- While rst is asserted the block holds its reset values (70_reset_and_hazards.md R136). -/
theorem step_keeps_held {s t : State} (h : step s = .next t) (hs : s.rst = true → s.blk = Block.reset s.cfg) :
    t.rst = true → t.blk = Block.reset t.cfg := by
  obtain ⟨-, hcfg, -, ⟨level, -, hr, hb⟩ | ⟨-, hr, hb⟩ | ⟨q, -, hr, hb⟩⟩ := step_cases h <;> rw [hr, hcfg] <;>
    intro hrst
  · rw [hb, if_pos hrst]
  · rw [hb, if_pos hrst, hs hrst]
  · obtain hb | ⟨hreleased, -⟩ := hb
    · rw [hb, hs hrst]
    · exact nomatch hrst.symm.trans hreleased

theorem step_inv {s t : State} (hs : s.Inv) (h : step s = .next t) : t.Inv := by
  obtain ⟨hl, hcfg, -⟩ := step_cases h
  exact ⟨hcfg ▸ hl, step_blk_inv h hs.blk, step_keeps_held h hs.held⟩

theorem State.Inv.resetWith {c : Config} (hl : c.legal = true) (es : List Event) :
    State.Inv { State.resetWith c with inputs := es } :=
  ⟨hl, Block.Inv.reset c, nofun⟩

/-- What every step keeps, every run keeps. -/
theorem runsTo_keeps {P : State → Prop} (hstep : ∀ s t, step s = .next t → P s → P t) {n : Nat} {s u : State}
    (hrun : RunsTo n s u) (hs : P s) : P u := by
  induction n generalizing s with
  | zero => exact Eq.symm hrun ▸ hs
  | succ n ih =>
    obtain ⟨t, ht, hrest⟩ := hrun
    exact ih hrest (hstep s t ht hs)

/-! ### The obligations -/

/-- Settles O43: each kind of event keeps the block's invariant, and rst holds the block at reset. -/
theorem invariantIsKept : Obligations.InvariantIsKept :=
  fun _ _ => step_inv

/-- Settles O44: the reset values meet every condition; REF is legal. -/
theorem invariantHoldsAtReset : Obligations.InvariantHoldsAtReset :=
  ⟨fun _ hl => State.Inv.resetWith hl [], State.Inv.resetWith (c := Config.ref) (by decide) []⟩

/-- Settles O45: the invariant holds at reset and every step keeps it, so every reachable state has R32's conditions;
(d) in numbers, (f) from the codes of the phases there are. -/
theorem reachableStates : Obligations.ReachableStates := by
  intro c es n u hl hrun
  have ⟨hinv, hcfg⟩ : u.Inv ∧ u.cfg = c := runsTo_keeps (P := fun s => s.Inv ∧ s.cfg = c)
    (fun s t h ⟨hs, hc⟩ =>
      have ⟨_, hcfg, _⟩ := step_cases h
      ⟨step_inv hs h, hcfg.trans hc⟩)
    hrun ⟨State.Inv.resetWith hl es, rfl⟩
  have hblk := hinv.blk
  rw [hcfg] at hblk
  have hquiet (hp : u.blk.phase = .idle ∨ u.blk.phase = .done) : u.blk.busy = false := by
    rcases hp with hp | hp <;> rw [Block.busy, hp, Phase.busy]
  have hcode : u.blk.phase.code ≠ 6 ∧ u.blk.phase.code ≠ 7 := by
    cases u.blk.phase <;> decide
  refine ⟨hblk.driven, hblk.initIsOe, fun hp => hblk.quiet (hquiet hp), fun hbusy => ?_, hblk.lineLevel, hcode⟩
  rw [← elapsed_eq hl u.blk.now u.blk.te hblk.teStartFits]
  exact hblk.timed hbusy

/-- Settles O32: the invariant after the tick leaves time on the encoder timer, so the sequencer would do nothing. -/
theorem oneTransitionPerTick : Obligations.OneTransitionPerTick := by
  intro s t hs _ _ h hbusy
  obtain ⟨-, -, hleft⟩ := (step_blk_inv h hs.blk).timed hbusy
  have hfin : t.blk.teFinished t.cfg = false := by
    rw [Block.teFinished, Timer.finished, decide_eq_false (Nat.not_le.2 hleft), Bool.and_false]
  exact ⟨hfin, by simp [Block.seqStep, hfin]⟩

end Sys2Proof.Machine
end

section
/-! The course of a frame (41_encoder.md R93, R94): the stages the block passes through under ticks alone, where each
begins, and the number of ticks to DONE. -/

namespace Sys2Proof.Machine

/-! ### Stages -/

/-- A stage of a frame: what the encoder holds while it lasts, and for how long its timer is armed. -/
structure Stage where
  phase : Phase
  idx : BitVec 4
  line : Level
  dur : Duration
  frame : FrameWord

/-- The pulse of the start marker (41_encoder.md R83). -/
def Stage.startPulse (c : Config) (w : FrameWord) : Stage := ⟨.startActive, 0, activeLevel c, c.tStartActive, w⟩

/-- The gap of the start marker (41_encoder.md R87). -/
def Stage.startGap (c : Config) (w : FrameWord) : Stage := ⟨.startGap, 0, c.idleLevel, c.tStartGap, w⟩

/-- The pulse of data symbol `k` (41_encoder.md R88, R90). -/
def Stage.pulse (c : Config) (w : FrameWord) (k : Nat) : Stage :=
  ⟨.bitActive, BitVec.ofNat 4 k, activeLevel c, symbolDur c w k, w⟩

/-- The gap of data symbol `k` (41_encoder.md R89). -/
def Stage.gap (c : Config) (w : FrameWord) (k : Nat) : Stage := ⟨.bitGap, BitVec.ofNat 4 k, c.idleLevel, c.tGap, w⟩

/-- After the frame: the encoder timer is still the last gap's (41_encoder.md R91). -/
def Stage.over (c : Config) : Stage := ⟨.done, 0, c.idleLevel, c.tGap, 0⟩

/-- The block `n` ticks after the moment of `b`, in a stage that began `start` ticks after it. -/
def Block.inStage (c : Config) (b : Block) (g : Stage) (start n : Nat) : Block :=
  { b with
    now := clockWrap c (b.now.toNat + n)
    te := armed (clockWrap c (b.now.toNat + start)) g.dur
    line := g.line
    phase := g.phase
    idx := g.idx
    frame := g.frame }

theorem startFrame_eq_inStage {c : Config} {b : Block} (hnow : b.now.toNat < 2 ^ c.clockBits) (w : FrameWord) :
    b.startFrame c w = b.inStage c (.startPulse c w) 0 0 := by
  simp only [Block.inStage, Nat.add_zero, clockWrap_of_fits hnow]
  rfl

/-! ### One tick in a stage -/

section
variable {c : Config} {b : Block} {g : Stage} {start n : Nat}

theorem countTick_inStage (hl : c.legal = true) (b : Block) (g : Stage) (start n : Nat) :
    (b.inStage c g start n).countTick c = b.inStage c g start (n + 1) := by
  have hnow := clockWrap_succ hl (b.now.toNat + n)
  simp only [Block.countTick, Block.inStage, hnow, Nat.add_assoc]

/-- The stage's timer is finished when the stage's duration has passed (40_timer.md R73). -/
theorem inStage_finished (hl : c.legal = true) (hstart : start ≤ n) (hn : n ≤ start + g.dur.toNat) (m : Nat) :
    (b.inStage c g start m).te.finished c (clockWrap c (b.now.toNat + n)) = decide (start + g.dur.toNat ≤ n) := by
  obtain ⟨j, rfl⟩ := Nat.exists_eq_add_of_le hstart
  have hclock := le_clock hl
  have hdur := g.dur.isLt
  have helapsed := elapsed_after hl (b.now.toNat + start) j (by omega) g.dur true
  rw [Nat.add_assoc] at helapsed
  simp only [Block.inStage, Timer.finished, armed, Bool.true_and, helapsed, Nat.add_le_add_iff_left]

/-- A tick within a stage only counts. -/
theorem tick_inStage_of_lt (hl : c.legal = true) (hstart : start ≤ n) (hn : n + 1 < start + g.dur.toNat) :
    (b.inStage c g start n).tick c = b.inStage c g start (n + 1) := by
  rw [← countTick_inStage hl]
  refine tick_of_not_due (.inr ?_)
  have hfin := inStage_finished (b := b) (g := g) hl (Nat.le_add_right_of_le hstart) (Nat.le_of_lt hn) n
  rw [decide_eq_false (Nat.not_le.2 hn), ← Nat.add_assoc, ← clockWrap_succ hl] at hfin
  exact hfin

/-- The last tick of a stage makes its transition. -/
theorem tick_inStage_of_eq (hl : c.legal = true) (hbusy : g.phase.busy = true) (hstart : start ≤ n)
    (hn : n + 1 = start + g.dur.toNat) :
    (b.inStage c g start n).tick c = (b.inStage c g start (n + 1)).nextStage c := by
  rw [← countTick_inStage hl]
  refine tick_of_due hbusy ?_
  have hfin := inStage_finished (b := b) (g := g) hl (Nat.le_add_right_of_le hstart) (Nat.le_of_eq hn) n
  rw [decide_eq_true (Nat.le_of_eq hn.symm), ← Nat.add_assoc, ← clockWrap_succ hl] at hfin
  exact hfin

/-! ### A whole stage -/

variable {b₀ : Block}

/-- From the tick at which a stage begins, the block stays in it while its duration lasts. -/
theorem ticks_within_stage (hl : c.legal = true) (hbegin : ticks c start b₀ = b.inStage c g start start)
    (hstart : start ≤ n) (hn : n < start + g.dur.toNat) : ticks c n b₀ = b.inStage c g start n := by
  induction n, hstart using Nat.le_induction with
  | base => exact hbegin
  | succ n hstart ih => rw [ticks_succ, ih (by omega), tick_inStage_of_lt hl hstart hn]

/-- When its duration has passed, the stage makes its transition. -/
theorem ticks_stage_end (hl : c.legal = true) (hbusy : g.phase.busy = true) (hdur : 1 ≤ g.dur.toNat)
    (hbegin : ticks c start b₀ = b.inStage c g start start) :
    ticks c (start + g.dur.toNat) b₀ = (b.inStage c g start (start + g.dur.toNat)).nextStage c := by
  obtain ⟨d, hd⟩ := Nat.exists_eq_add_of_le' hdur
  rw [hd, ← Nat.add_assoc, ticks_succ, ticks_within_stage hl hbegin (Nat.le_add_right _ _) (by omega),
    tick_inStage_of_eq hl hbusy (Nat.le_add_right _ _) (by omega)]

/-- Where no frame is in flight every tick only counts. -/
theorem ticks_idle_stage (hl : c.legal = true) (hidle : g.phase.busy = false) {m : Nat}
    (hbegin : ticks c m b₀ = b.inStage c g start m) (hn : m ≤ n) : ticks c n b₀ = b.inStage c g start n := by
  induction n, hn using Nat.le_induction with
  | base => exact hbegin
  | succ n _ ih =>
    have hbusy : (b.inStage c g start n).busy = false := hidle
    rw [ticks_succ, ih, tick_of_not_due (.inl hbusy), countTick_inStage hl]

end

/-! ### From stage to stage -/

section
variable {c : Config} {b : Block} {w : FrameWord}

/-- The index of a symbol of the frame fits IDX (10_state.md R29). -/
theorem idx_toNat_of_lt {k : Nat} (hl : c.legal = true) (hk : k < frameLen c) : (BitVec.ofNat 4 k).toNat = k := by
  have := frameLen_le hl
  rw [BitVec.toNat_ofNat]
  omega

theorem nextStage_gap (hl : c.legal = true) {k : Nat} (hk : k + 1 < frameLen c) (start n : Nat) :
    (b.inStage c (.gap c w k) start n).nextStage c = b.inStage c (.pulse c w (k + 1)) n n := by
  have hidx := idx_toNat_of_lt hl (Nat.lt_of_succ_lt hk)
  have hpred := frameLen_pred c
  rw [nextStage_bitGap_of_lt rfl (show (BitVec.ofNat 4 k).toNat < _ by omega)]
  simp only [Block.nextSymbol, Block.armTe, Block.inStage, Stage.gap, Stage.pulse, hidx, BitVec.ofNat_add]
  rfl

theorem nextStage_last_gap (hl : c.legal = true) {k : Nat} (hk : k + 1 = frameLen c) (start n : Nat) :
    (b.inStage c (.gap c w k) start n).nextStage c = b.inStage c (.over c) start n := by
  have hidx := idx_toNat_of_lt hl (show k < frameLen c by omega)
  have hpred := frameLen_pred c
  rw [nextStage_bitGap_of_le rfl (show _ ≤ (BitVec.ofNat 4 k).toNat by omega)]
  rfl

variable (hl : c.legal = true) (hnow : b.now.toNat < 2 ^ c.clockBits)
include hl hnow

theorem startGap_begins : ticks c c.tStartActive.toNat (b.startFrame c w) =
    b.inStage c (.startGap c w) c.tStartActive.toNat c.tStartActive.toNat := by
  obtain ⟨-, -, ⟨hdur, -⟩, -⟩ := legal_bounds hl
  have hend := ticks_stage_end (start := 0) (b := b) (g := .startPulse c w) hl rfl hdur (startFrame_eq_inStage hnow w)
  rwa [Nat.zero_add] at hend

theorem first_pulse_begins : ticks c (symbolStart c w 0) (b.startFrame c w) =
    b.inStage c (.pulse c w 0) (symbolStart c w 0) (symbolStart c w 0) := by
  obtain ⟨-, -, ⟨-, hdur, -⟩, -⟩ := legal_bounds hl
  exact ticks_stage_end (g := .startGap c w) hl rfl hdur (startGap_begins hl hnow)

omit hnow in
/-- Once a symbol's pulse begins, its gap begins when the symbol's duration has passed. -/
theorem gap_begins_of_pulse_begins {k : Nat}
    (hbegin : ticks c (symbolStart c w k) (b.startFrame c w) =
      b.inStage c (.pulse c w k) (symbolStart c w k) (symbolStart c w k)) :
    ticks c (symbolStart c w k + (symbolDur c w k).toNat) (b.startFrame c w) =
      b.inStage c (.gap c w k) (symbolStart c w k + (symbolDur c w k).toNat)
        (symbolStart c w k + (symbolDur c w k).toNat) :=
  ticks_stage_end (g := .pulse c w k) hl rfl (one_le_symbolDur hl w k) hbegin

/-- Each data symbol begins at the time that 41_encoder.md R93 gives it. -/
theorem pulse_begins {k : Nat} (hk : k < frameLen c) : ticks c (symbolStart c w k) (b.startFrame c w) =
    b.inStage c (.pulse c w k) (symbolStart c w k) (symbolStart c w k) := by
  obtain ⟨-, -, ⟨-, -, -, -, hgap⟩, -⟩ := legal_bounds hl
  induction k with
  | zero => exact first_pulse_begins hl hnow
  | succ k ih =>
    have hbegin := gap_begins_of_pulse_begins hl (ih (by omega))
    exact (ticks_stage_end (g := .gap c w k) hl rfl hgap hbegin).trans (nextStage_gap hl hk _ _)

theorem gap_begins {k : Nat} (hk : k < frameLen c) :
    ticks c (symbolStart c w k + (symbolDur c w k).toNat) (b.startFrame c w) =
      b.inStage c (.gap c w k) (symbolStart c w k + (symbolDur c w k).toNat)
        (symbolStart c w k + (symbolDur c w k).toNat) :=
  gap_begins_of_pulse_begins hl (pulse_begins hl hnow hk)

/-! ### The table of 41_encoder.md R93 -/

variable {n : Nat}

theorem ticks_startPulse (hn : n < c.tStartActive.toNat) :
    ticks c n (b.startFrame c w) = b.inStage c (.startPulse c w) 0 n :=
  ticks_within_stage (g := .startPulse c w) hl (startFrame_eq_inStage hnow w) (Nat.zero_le n)
    (by rw [Nat.zero_add]; exact hn)

theorem ticks_startGap (hge : c.tStartActive.toNat ≤ n) (hn : n < symbolStart c w 0) :
    ticks c n (b.startFrame c w) = b.inStage c (.startGap c w) c.tStartActive.toNat n :=
  ticks_within_stage (g := .startGap c w) hl (startGap_begins hl hnow) hge hn

theorem ticks_pulse {k : Nat} (hk : k < frameLen c) (hge : symbolStart c w k ≤ n)
    (hn : n < symbolStart c w k + (symbolDur c w k).toNat) :
    ticks c n (b.startFrame c w) = b.inStage c (.pulse c w k) (symbolStart c w k) n :=
  ticks_within_stage (g := .pulse c w k) hl (pulse_begins hl hnow hk) hge hn

theorem ticks_gap {k : Nat} (hk : k < frameLen c) (hge : symbolStart c w k + (symbolDur c w k).toNat ≤ n)
    (hn : n < symbolStart c w (k + 1)) : ticks c n (b.startFrame c w) =
    b.inStage c (.gap c w k) (symbolStart c w k + (symbolDur c w k).toNat) n :=
  ticks_within_stage (g := .gap c w k) hl (gap_begins hl hnow hk) hge hn

theorem ticks_over (hge : symbolStart c w (frameLen c) ≤ n) : ticks c n (b.startFrame c w) =
    b.inStage c (.over c) (symbolStart c w (frameLen c) - c.tGap.toNat) n := by
  obtain ⟨-, -, ⟨-, -, -, -, hgap⟩, -⟩ := legal_bounds hl
  obtain ⟨k, hk⟩ : ∃ k, k + 1 = frameLen c := ⟨9 + c.stripeWidth, by unfold frameLen; omega⟩
  have hbegin := gap_begins hl hnow (w := w) (show k < frameLen c by omega)
  have hend := ticks_stage_end (g := .gap c w k) hl rfl hgap hbegin
  rw [nextStage_last_gap hl hk] at hend
  have hover := ticks_idle_stage hl rfl hend (show symbolStart c w (k + 1) ≤ n from hk ▸ hge)
  rw [← hk, symbolStart, Nat.add_sub_cancel]
  exact hover

omit hl hnow in
/-- A moment before symbol `m` begins lies in the start marker or in one of the symbols before it. -/
theorem lt_symbolStart_cases {m : Nat} (hn : n < symbolStart c w m) :
    n < symbolStart c w 0 ∨ ∃ k, k < m ∧ symbolStart c w k ≤ n ∧ n < symbolStart c w (k + 1) := by
  induction m with
  | zero => exact .inl hn
  | succ m ih =>
    by_cases hm : n < symbolStart c w m
    · obtain h | ⟨k, hk, hge, hlt⟩ := ih hm
      · exact .inl h
      · exact .inr ⟨k, by omega, hge, hlt⟩
    · exact .inr ⟨m, by omega, by omega, hn⟩

end

/-- The stage that a moment of a frame falls in, whatever the block that the frame began in: one in flight that holds
the frame's word until the last gap ends. -/
theorem exists_stage_at {c : Config} (hl : c.legal = true) (w : FrameWord) (n : Nat) : ∃ g start,
    (n < symbolStart c w (frameLen c) → g.phase.busy = true ∧ g.frame = w) ∧
    ∀ b : Block, b.now.toNat < 2 ^ c.clockBits → ticks c n (b.startFrame c w) = b.inStage c g start n := by
  by_cases hover : symbolStart c w (frameLen c) ≤ n
  · exact ⟨_, _, fun h => absurd hover (Nat.not_le.2 h), fun b hnow => ticks_over hl hnow hover⟩
  · obtain hstart | ⟨k, hk, hge, hlt⟩ := lt_symbolStart_cases (Nat.not_le.1 hover)
    · by_cases hpulse : n < c.tStartActive.toNat
      · exact ⟨_, _, fun _ => ⟨rfl, rfl⟩, fun b hnow => ticks_startPulse hl hnow hpulse⟩
      · exact ⟨_, _, fun _ => ⟨rfl, rfl⟩, fun b hnow => ticks_startGap hl hnow (Nat.not_lt.1 hpulse) hstart⟩
    · by_cases hpulse : n < symbolStart c w k + (symbolDur c w k).toNat
      · exact ⟨_, _, fun _ => ⟨rfl, rfl⟩, fun b hnow => ticks_pulse hl hnow hk hge hpulse⟩
      · exact ⟨_, _, fun _ => ⟨rfl, rfl⟩, fun b hnow => ticks_gap hl hnow hk (Nat.not_lt.1 hpulse) hlt⟩

/-! ### The number of ticks to DONE (41_encoder.md R94) -/

/-- How many of the first `k` data symbols are 1. -/
def onesBefore (c : Config) (w : FrameWord) (k : Nat) : Nat := ((List.range k).filter (symbolOf c w)).length

theorem onesBefore_succ (c : Config) (w : FrameWord) (k : Nat) :
    onesBefore c w (k + 1) = onesBefore c w k + if symbolOf c w k then 1 else 0 := by
  rw [onesBefore, List.range_succ, List.filter_append, List.length_append, onesBefore]
  cases hk : symbolOf c w k <;> simp [hk]

theorem onesBefore_le (c : Config) (w : FrameWord) (k : Nat) : onesBefore c w k ≤ k := by
  simpa [onesBefore] using List.length_filter_le (symbolOf c w) (List.range k)

theorem symbolStart_eq (c : Config) (w : FrameWord) (k : Nat) : symbolStart c w k =
    c.tStartActive.toNat + c.tStartGap.toNat + k * c.tGap.toNat + onesBefore c w k * c.tLong.toNat +
      (k - onesBefore c w k) * c.tTiny.toNat := by
  induction k with
  | zero => simp [symbolStart, onesBefore]
  | succ k ih =>
    have hle := onesBefore_le c w k
    rw [symbolStart, ih, symbolDur, onesBefore_succ]
    split
    · rw [Nat.add_sub_add_right]
      ring
    · simp only [Nat.add_zero, Nat.sub_add_comm hle]
      ring

/-- F is the time at which a symbol after the last one would begin. -/
theorem symbolStart_frameLen (c : Config) (w : FrameWord) : symbolStart c w (frameLen c) = frameTicks c w :=
  symbolStart_eq c w (frameLen c)

theorem frameTicks_ref (w : FrameWord) : frameTicks Config.ref w = 36 + 2 * frameOnes Config.ref w := by
  have hle : frameOnes Config.ref w ≤ 12 := onesBefore_le Config.ref w 12
  have hF : frameTicks Config.ref w =
      8 + 4 + 12 * 1 + frameOnes Config.ref w * 3 + (12 - frameOnes Config.ref w) * 1 := rfl
  omega

end Sys2Proof.Machine
end

section
/-! Whole frames under any traffic (41_encoder.md R93, R94; 10_state.md R34; 20_memory.md section 4): the block but for
the host timer goes where the listed ticks alone lead it. -/

namespace Sys2Proof.Machine

/-! ### The block but for the host timer -/

/-- All of the block but its host timer, which TSET writes whatever the encoder does. -/
def Block.encoder (b : Block) : Block := { b with th := .inert }

theorem nextStage_encoder (c : Config) (b : Block) : (b.nextStage c).encoder = b.encoder.nextStage c := by
  have hphase : b.encoder.phase = b.phase := rfl
  have hidx : b.encoder.idx = b.idx := rfl
  simp only [Block.nextStage, hphase, hidx]
  cases b.phase with
  | bitGap => exact apply_ite Block.encoder _ _ _
  | _ => rfl

theorem tick_encoder (c : Config) (b : Block) : (b.tick c).encoder = b.encoder.tick c := by
  obtain ⟨hidle, e⟩ | ⟨-, hfin, e⟩ | ⟨hbusy, hfin, e⟩ := tick_cases c b <;> rw [e]
  · exact (tick_of_not_due (b := b.encoder) (.inl hidle)).symm
  · exact (tick_of_not_due (b := b.encoder) (.inr hfin)).symm
  · rw [nextStage_encoder]
    exact (tick_of_due (b := b.encoder) hbusy hfin).symm

theorem ticks_encoder (c : Config) (n : Nat) (b : Block) : (ticks c n b).encoder = ticks c n b.encoder := by
  induction n generalizing b with
  | zero => rfl
  | succ n ih => rw [ticks, ih, tick_encoder, ticks]

theorem fields_of_encoder_eq {b b' : Block} (h : b'.encoder = b.encoder) : b'.now = b.now ∧ b.SameEncoder b' := by
  simpa only [Block.encoder, Block.SameEncoder, Block.mk.injEq, true_and] using h

theorem busy_of_encoder_eq {b b' : Block} (h : b'.encoder = b.encoder) : b'.busy = b.busy := by
  obtain ⟨-, -, -, -, -, hphase, -⟩ := fields_of_encoder_eq h
  rw [Block.busy, hphase, Block.busy]

/-- Ticks start no frame. -/
theorem ticks_of_idle {c : Config} {b : Block} (n : Nat) (hidle : b.busy = false) : (ticks c n b).busy = false := by
  induction n with
  | zero => exact hidle
  | succ n ih =>
    rw [ticks_succ, tick_of_not_due (.inl ih)]
    exact ih

/-! ### What the listed ticks lead to -/

/-- The block that the ticks among the events to come lead to, if no request touches it. -/
def State.due (s : State) : Block := if s.rst then s.blk else ticks s.cfg (tickCount s.inputs) s.blk

theorem due_of_nil {s : State} (hin : s.inputs = []) : s.due = s.blk := by
  simp [State.due, hin, tickCount, ticks]

theorem due_of_released {s : State} (hr : s.rst = false) : s.due = ticks s.cfg (tickCount s.inputs) s.blk := by
  simp [State.due, hr]

/-- With rst released, a frame that is in flight when the listed ticks have passed is in flight now. -/
theorem busy_of_due_busy {s : State} (hr : s.rst = false) (hdue : s.due.busy = true) : s.blk.busy = true := by
  rw [due_of_released hr] at hdue
  by_contra hne
  rw [Bool.not_eq_true] at hne
  exact nomatch (ticks_of_idle _ hne).symm.trans hdue

theorem inputs_eq_cons {s : State} (hin : s.inputs ≠ []) : s.inputs = s.nextEvent :: s.inputs.tail := by
  unfold State.nextEvent
  cases h : s.inputs with
  | nil => exact absurd h hin
  | cons e es => rfl

/-- A step on a listed event leaves what is due, but for the host timer, when a level of rst changes nothing and a
request does not touch the encoder. -/
theorem step_due {s t : State} (h : step s = .next t) (hin : s.inputs ≠ [])
    (hrst : ∀ level, s.nextEvent = .rst level → level = false ∧ s.rst = false)
    (hreq : ∀ q i, s.nextEvent = .request q → decode q = .ok i → exec i s.takeEvent = .next t →
      t.blk.encoder = s.blk.encoder) : t.due.encoder = s.due.encoder := by
  have hlist := inputs_eq_cons hin
  obtain ⟨-, hcfg, htail, ⟨level, he, hr, hblk⟩ | ⟨he, hr, hblk⟩ | ⟨q, he, hr, hblk⟩⟩ := step_cases h <;>
    rw [he, ← htail] at hlist
  · obtain ⟨rfl, hreleased⟩ := hrst level he
    rw [due_of_released hr, due_of_released hreleased, hcfg, hblk, hlist]
    rfl
  · unfold State.due
    rw [hr, hcfg, hblk, hlist]
    cases s.rst <;> rfl
  · have hblk' : t.blk.encoder = s.blk.encoder := by
      obtain hblk | ⟨-, i, hd, hex⟩ := hblk
      · rw [hblk]
      · exact hreq q i he hd hex
    unfold State.due
    rw [hr, hcfg, hlist]
    cases s.rst with
    | true => exact hblk'
    | false =>
      show (ticks s.cfg (tickCount t.inputs) t.blk).encoder = (ticks s.cfg (tickCount t.inputs) s.blk).encoder
      rw [ticks_encoder, ticks_encoder, hblk']

/-- When every step on a listed event keeps `Q` and what is due, the run through the list ends in what was due. -/
theorem exists_runsTo_due {Q : State → Prop} (hstep : ∀ s t, step s = .next t → s.inputs ≠ [] → Q s →
    Q t ∧ t.due.encoder = s.due.encoder) {s : State} (hl : s.cfg.legal = true) (hs : Q s) :
    ∃ u, RunsTo s.inputs.length s u ∧ Q u ∧ u.blk.encoder = s.due.encoder := by
  obtain ⟨u, hrun, hlen, hu, hdue⟩ := exists_runsTo_of_step
    (P := fun n v => v.inputs.length = n ∧ Q v ∧ v.due.encoder = s.due.encoder)
    (fun n v t h ⟨hlen, hv, hdue⟩ => by
      have hne : v.inputs ≠ [] := List.ne_nil_of_length_eq_add_one hlen
      obtain ⟨-, -, htail, -⟩ := step_cases h
      obtain ⟨ht, hkeep⟩ := hstep v t h hne hv
      exact ⟨by rw [htail, List.length_tail, hlen, Nat.add_sub_cancel], ht, hkeep.trans hdue⟩)
    hl ⟨rfl, hs, rfl⟩
  rw [due_of_nil (List.length_eq_zero_iff.1 hlen)] at hdue
  exact ⟨u, hrun, hu, hdue⟩

/-! ### Traffic without reset, BEGIN and SEND -/

theorem exec_spares {i : Instr} {s t : State} (h : exec i s = .next t) (hbegin : i ≠ .beginLine)
    (hsend : sendOperands i = none) : t.blk.encoder = s.blk.encoder := by
  obtain ⟨-, -, -, hblk | ⟨hi, -⟩ | ⟨d, -, -, -, hblk⟩ | ⟨_, _, _, _, hops, -⟩⟩ := exec_cases h
  · rw [hblk]
  · exact absurd hi hbegin
  · rw [hblk]
    rfl
  · exact nomatch hsend.symm.trans hops

/-- A request that spares the encoder is no BEGIN and carries no SEND. -/
theorem sparesEncoder_request {q : Word} {i : Instr} (hd : decode q = .ok i)
    (hq : (Event.request q).sparesEncoder = true) : i ≠ .beginLine ∧ sendOperands i = none := by
  rw [Event.sparesEncoder, hd] at hq
  split at hq
  · cases hq
  · rename_i hne heq
    cases heq
    exact ⟨fun h => hne (h ▸ rfl), Option.isNone_iff_eq_none.1 hq⟩
  · rename_i heq
    cases heq

theorem exists_runsTo_of_sparesEncoder {s : State} (hl : s.cfg.legal = true)
    (hes : ∀ e ∈ s.inputs, e.sparesEncoder = true) :
    ∃ u, RunsTo s.inputs.length s u ∧ u.blk.encoder = s.due.encoder := by
  obtain ⟨u, hrun, -, hu⟩ := exists_runsTo_due (Q := fun v => ∀ e ∈ v.inputs, e.sparesEncoder = true)
    (fun v t h hne hv => by
      obtain ⟨-, -, htail, -⟩ := step_cases h
      have hspares : v.nextEvent.sparesEncoder = true := hv _ (inputs_eq_cons hne ▸ List.mem_cons_self)
      refine ⟨fun e he => hv e (List.mem_of_mem_tail (htail ▸ he)), step_due h hne (fun level he => ?_)
        (fun q i he hd hex => ?_)⟩
      · rw [he] at hspares
        cases hspares
      · obtain ⟨hbegin, hsend⟩ := sparesEncoder_request hd (he ▸ hspares)
        exact exec_spares (s := v.takeEvent) hex hbegin hsend)
    hl hes
  exact ⟨u, hrun, hu⟩

theorem tickCount_replicate (n : Nat) : tickCount (List.replicate n .tick) = n := by
  induction n with
  | zero => rfl
  | succ n ih => rw [List.replicate_succ, tickCount, ih]

/-! ### A frame under any traffic but a reset and an accepted SEND -/

/-- What an accepted SEND says: all its checks passed, and the next state is the start of its frame (41_encoder.md
R83). -/
theorem exec_send_accepted {i : Instr} {cmd : Byte} {l8 l9 : Bool} {stripe : BitVec 6} {s t : State}
    (hops : sendOperands i = some (cmd, l8, l9, stripe)) (h : exec i s = .next t) (hok : t.rspStatus = .ok) :
    s.blk.init = true ∧ stripeFits s.cfg stripe = true ∧ t = { s with
      blk := s.blk.startFrame s.cfg (frameWord s.cfg cmd l8 l9 stripe)
      rspStatus := .ok
      rspData := 0 } := by
  rw [exec_of_sendOperands hops] at h
  obtain ⟨-, e⟩ | ⟨-, -, e⟩ | ⟨-, -, -, e⟩ | ⟨-, -, -, -, e⟩ | ⟨hinit, -, -, hfits, e⟩ :=
    sendRequest_cases cmd l8 l9 stripe s <;> rw [e] at h <;> cases h
  · exact nomatch hok
  · exact nomatch hok
  · exact nomatch hok
  · exact nomatch hok
  · exact ⟨hinit, hfits, rfl⟩

/-- A request leaves the encoder of an initialised block alone, unless it is an accepted SEND: an accepted BEGIN writes
what the block already holds. -/
theorem exec_keeps_encoder {i : Instr} {s t : State} (h : exec i s = .next t) (hinv : s.blk.Inv s.cfg)
    (hinit : s.blk.init = true) : t.blk.encoder = s.blk.encoder ∨
    (Instr.isSend i = true ∧ s.blk.busy = false ∧ t.rspStatus = .ok) := by
  obtain ⟨-, -, -, hblk | ⟨-, hidle, -, hblk⟩ | ⟨d, -, -, -, hblk⟩ | ⟨_, _, _, _, hops, -, hidle, -, -, hok, -⟩⟩ :=
    exec_cases h
  · exact .inl (by rw [hblk])
  · exact .inl (by rw [hblk, Block.initialise_eq_self hinv hinit hidle])
  · exact .inl (by rw [hblk]; rfl)
  · exact .inr ⟨by rw [Instr.isSend, hops, Option.isSome_some], hidle, hok⟩

/-- The machine in a frame or after it, with nothing to come that resets it or starts the next frame. -/
structure State.UndisturbedFrame (s : State) : Prop where
  released : s.rst = false
  inv : s.blk.Inv s.cfg
  init : s.blk.init = true
  spares : ∀ e ∈ s.inputs, e.sparesReset = true
  noSend : s.due.busy = true ∨ avoids Instr.isSend s.inputs.length s = true

/-- The request next to come starts no frame: it is refused while one is in flight, and after it not accepted. -/
theorem State.UndisturbedFrame.exec_encoder {s t : State} (hs : s.UndisturbedFrame) (h : step s = .next t)
    (hin : s.inputs ≠ []) {q : Word} {i : Instr} (he : s.nextEvent = .request q) (hd : decode q = .ok i)
    (hex : exec i s.takeEvent = .next t) : t.blk.encoder = s.blk.encoder := by
  have hbusy := busy_of_due_busy hs.released
  obtain hkeep | ⟨hsend, hidle, hok⟩ := exec_keeps_encoder (s := s.takeEvent) hex hs.inv hs.init
  · exact hkeep
  · obtain hdue | havoid := hs.noSend
    · exact nomatch hidle.symm.trans (hbusy hdue)
    · rw [inputs_eq_cons hin, List.length_cons, avoids_succ h] at havoid
      obtain ⟨hacc, -⟩ := havoid
      exact nomatch hacc.symm.trans ((accepts_iff _ s).2 ⟨q, i, t, he, hd, hs.released, hsend, h, hok⟩)

theorem State.UndisturbedFrame.step {s t : State} (hs : s.UndisturbedFrame) (h : step s = .next t)
    (hin : s.inputs ≠ []) : t.UndisturbedFrame ∧ t.due.encoder = s.due.encoder := by
  have hnext := nextEvent_ne_rst hs.spares
  obtain ⟨-, -, htail, hcases⟩ := step_cases h
  have hlevel (level : Bool) (he : s.nextEvent = .rst level) : level = false := by
    cases level with
    | true => exact absurd he hnext
    | false => rfl
  have hdue := step_due h hin (fun level he => ⟨hlevel level he, hs.released⟩)
    (fun q i he hd hex => hs.exec_encoder h hin he hd hex)
  refine ⟨⟨?_, step_blk_inv h hs.inv, ?_, fun e he => hs.spares e (List.mem_of_mem_tail (htail ▸ he)), ?_⟩, hdue⟩
  · obtain ⟨level, he, hr, -⟩ | ⟨-, hr, -⟩ | ⟨q, -, hr, -⟩ := hcases
    · exact hr.trans (hlevel level he)
    · exact hr.trans hs.released
    · exact hr.trans hs.released
  · by_contra hne
    obtain ⟨he, -⟩ | ⟨q, -, -, -, hinit⟩ := step_init h (fun heq => hne (heq.trans hs.init))
    · exact hnext he
    · exact hne hinit
  · obtain hbusy | havoid := hs.noSend
    · exact .inl ((busy_of_encoder_eq hdue).trans hbusy)
    · rw [inputs_eq_cons hin, List.length_cons, avoids_succ h, ← htail] at havoid
      exact .inr havoid.2

/-- After an accepted SEND, with events to come that leave its frame alone: what is due is the frame's own course. -/
theorem undisturbedFrame_of_accepted {i : Instr} {cmd : Byte} {l8 l9 : Bool} {stripe : BitVec 6} {s t : State}
    {es : List Event} (hready : s.Ready) (hinv : s.blk.Inv s.cfg) (hops : sendOperands i = some (cmd, l8, l9, stripe))
    (h : exec i s = .next t) (hok : t.rspStatus = .ok)
    (hleaves : t.LeavesFrame (frameWord s.cfg cmd l8 l9 stripe) es) :
    ({ t with inputs := es } : State).UndisturbedFrame ∧ ({ t with inputs := es } : State).due =
      ticks s.cfg (tickCount es) (s.blk.startFrame s.cfg (frameWord s.cfg cmd l8 l9 stripe)) := by
  obtain ⟨hinit, hfits, rfl⟩ := exec_send_accepted hops h hok
  obtain ⟨hspares, hno⟩ := hleaves
  have hword := frameWord_lt_of_fits hready.legal cmd l8 l9 hfits
  refine ⟨⟨hready.released, hinv.startFrame hready.legal hinit hword, hinit, hspares, hno.imp_left fun hlt => ?_⟩,
    due_of_released hready.released⟩
  obtain ⟨g, start, hstage, e⟩ := exists_stage_at hready.legal (frameWord s.cfg cmd l8 l9 stripe) (tickCount es)
  obtain ⟨hbusy, -⟩ := hstage (symbolStart_frameLen _ _ ▸ hlt)
  have hcourse := (congrArg Block.busy (e s.blk hinv.nowFits)).trans hbusy
  refine (congrArg Block.busy (due_of_released ?_)).trans hcourse
  exact hready.released

/-- After an accepted SEND, whatever happens that leaves its frame alone, the machine runs to the block that the ticks
alone lead to, but for the host timer. -/
theorem exists_runsTo_frame {i : Instr} {cmd : Byte} {l8 l9 : Bool} {stripe : BitVec 6} {s t : State}
    {es : List Event} (hready : s.Ready) (hinv : s.blk.Inv s.cfg) (hops : sendOperands i = some (cmd, l8, l9, stripe))
    (h : exec i s = .next t) (hok : t.rspStatus = .ok)
    (hleaves : t.LeavesFrame (frameWord s.cfg cmd l8 l9 stripe) es) :
    s.blk.init = true ∧ ∃ u, RunsTo es.length { t with inputs := es } u ∧ u.blk.encoder =
      (ticks s.cfg (tickCount es) (s.blk.startFrame s.cfg (frameWord s.cfg cmd l8 l9 stripe))).encoder := by
  obtain ⟨hundisturbed, hdue⟩ := undisturbedFrame_of_accepted hready hinv hops h hok hleaves
  obtain ⟨hinit, -⟩ := exec_send_accepted hops h hok
  obtain ⟨hcfg, -⟩ := exec_cases h
  obtain ⟨u, hrun, -, hu⟩ := exists_runsTo_due (s := { t with inputs := es })
    (fun _ _ hstep hne hs => hs.step hstep hne) (show t.cfg.legal = true from hcfg ▸ hready.legal) hundisturbed
  exact ⟨hinit, u, hrun, hdue ▸ hu⟩

/-- The fields that a stage determines. -/
theorem fields_of_encoder_eq_inStage {c : Config} {u b : Block} {g : Stage} {start n : Nat}
    (h : u.encoder = (b.inStage c g start n).encoder) :
    u.phase = g.phase ∧ u.idx = g.idx ∧ u.line = g.line ∧ u.frame = g.frame ∧
    u.te = { start := clockWrap c (b.now.toNat + start), dur := g.dur, alive := true } := by
  obtain ⟨-, hte, -, -, hline, hphase, hidx, hframe⟩ := fields_of_encoder_eq h
  exact ⟨hphase, hidx, hline, hframe, hte⟩

theorem ticks_init_lineOe (c : Config) (n : Nat) (b : Block) :
    (ticks c n b).init = b.init ∧ (ticks c n b).lineOe = b.lineOe := by
  induction n with
  | zero => exact ⟨rfl, rfl⟩
  | succ n ih =>
    obtain ⟨-, -, hinit, hoe⟩ := tick_frame c (ticks c n b)
    rw [ticks_succ, hinit, hoe]
    exact ih

/-! ### The obligations -/

/-- Settles O46: the traffic leads where the ticks alone lead, and those are the stages of R93's table. -/
theorem frameTimeline : Obligations.FrameTimeline := by
  intro i cmd l8 l9 stripe s t w es n hready hinv hops h hok hw hleaves hn
  subst hn
  obtain ⟨hinit, u, hrun, hu⟩ := exists_runsTo_frame hready hinv hops h hok (hw ▸ hleaves)
  rw [← hw] at hu
  have hl := hready.legal
  have hnow := hinv.nowFits
  generalize tickCount es = n at hu ⊢
  obtain ⟨hunow, -, huinit, huoe, -⟩ := fields_of_encoder_eq hu
  obtain ⟨hkeepInit, hkeepOe⟩ := ticks_init_lineOe s.cfg n (s.blk.startFrame s.cfg w)
  refine ⟨u, hrun, ?_, ?_, ?_, fun hlt => ?_, fun hlt => ?_, fun hge hlt => ?_, fun k hk hge hlt => ?_,
    fun k hk hge hlt => ?_, fun hge => ?_⟩
  · exact hunow.trans (ticks_now hl n _ hnow)
  · exact huinit.trans (hkeepInit.trans hinit)
  · exact huoe.trans (hkeepOe.trans (hinv.initIsOe.symm.trans hinit))
  · obtain ⟨g, start, hstage, e⟩ := exists_stage_at hl w n
    obtain ⟨-, hframe⟩ := hstage hlt
    rw [e s.blk hnow] at hu
    obtain ⟨-, -, -, hframe', -⟩ := fields_of_encoder_eq_inStage hu
    exact hframe'.trans hframe
  · rw [ticks_startPulse hl hnow hlt] at hu
    obtain ⟨hphase, hidx, hline, -, hte⟩ := fields_of_encoder_eq_inStage hu
    rw [Nat.add_zero, clockWrap_of_fits hnow] at hte
    exact ⟨hphase, hidx, hline, hte⟩
  · rw [ticks_startGap hl hnow hge hlt] at hu
    obtain ⟨hphase, hidx, hline, -, hte⟩ := fields_of_encoder_eq_inStage hu
    exact ⟨hphase, hidx, hline, hte⟩
  · rw [ticks_pulse hl hnow hk hge hlt] at hu
    obtain ⟨hphase, hidx, hline, -, hte⟩ := fields_of_encoder_eq_inStage hu
    exact ⟨hphase, (congrArg BitVec.toNat hidx).trans (idx_toNat_of_lt hl hk), hline, hte⟩
  · rw [ticks_gap hl hnow hk hge hlt] at hu
    obtain ⟨hphase, hidx, hline, -, hte⟩ := fields_of_encoder_eq_inStage hu
    rw [← Nat.add_assoc] at hte
    exact ⟨hphase, (congrArg BitVec.toNat hidx).trans (idx_toNat_of_lt hl hk), hline, hte⟩
  · rw [ticks_over hl hnow hge] at hu
    obtain ⟨hphase, hidx, hline, hframe, hte⟩ := fields_of_encoder_eq_inStage hu
    have hgap : s.cfg.tGap.toNat ≤ symbolStart s.cfg w (frameLen s.cfg) := by
      rw [symbolStart_eq]
      have : 1 * s.cfg.tGap.toNat ≤ frameLen s.cfg * s.cfg.tGap.toNat :=
        Nat.mul_le_mul_right _ (by have := frameLen_le hl; omega)
      omega
    rw [← Nat.add_sub_assoc hgap] at hte
    exact ⟨hphase, hidx, hline, hframe, hte⟩

/-- Settles O47: before F ticks the block is in some stage in flight, from then on after the frame; F under REF is its
sum. -/
theorem frameEndsAfterF : Obligations.FrameEndsAfterF := by
  refine ⟨fun i cmd l8 l9 stripe s t es hready hinv hops h hok hleaves => ?_, fun w _ => frameTicks_ref w⟩
  obtain ⟨-, u, hrun, hu⟩ := exists_runsTo_frame hready hinv hops h hok hleaves
  rw [← symbolStart_frameLen]
  refine ⟨u, hrun, fun hlt => ?_, fun hge => ?_⟩
  · obtain ⟨g, start, hstage, e⟩ := exists_stage_at hready.legal _ (tickCount es)
    obtain ⟨hbusy, -⟩ := hstage hlt
    rw [e s.blk hinv.nowFits] at hu
    exact (busy_of_encoder_eq hu).trans hbusy
  · rw [ticks_over hready.legal hinv.nowFits hge] at hu
    obtain ⟨hphase, -⟩ := fields_of_encoder_eq_inStage hu
    exact hphase

/-- Settles O48: the stage that a moment falls in does not depend on the block that its frame began in. -/
theorem equalSendsEqualWaveforms : Obligations.EqualSendsEqualWaveforms := by
  intro i cmd l8 l9 stripe s s' t t' es es' hready hready' hinv hinv' hcfg hops h h' hok hok' hleaves hleaves' hn
  rw [← hcfg] at hleaves'
  obtain ⟨hinit, u, hrun, hu⟩ := exists_runsTo_frame hready hinv hops h hok hleaves
  obtain ⟨hinit', u', hrun', hu'⟩ := exists_runsTo_frame hready' hinv' hops h' hok' hleaves'
  obtain ⟨g, start, -, hstage⟩ :=
    exists_stage_at hready.legal (frameWord s.cfg cmd l8 l9 stripe) (tickCount es)
  rw [hstage s.blk hinv.nowFits] at hu
  rw [hcfg, hn, hstage s'.blk (hcfg ▸ hinv'.nowFits)] at hu'
  obtain ⟨-, -, -, hoe, -⟩ := fields_of_encoder_eq hu
  obtain ⟨-, -, -, hoe', -⟩ := fields_of_encoder_eq hu'
  obtain ⟨hphase, hidx, hline, hframe, -⟩ := fields_of_encoder_eq_inStage hu
  obtain ⟨hphase', hidx', hline', hframe', -⟩ := fields_of_encoder_eq_inStage hu'
  have hdriven : s.blk.lineOe = true := hinv.initIsOe.symm.trans hinit
  have hdriven' : s'.blk.lineOe = true := hinv'.initIsOe.symm.trans hinit'
  exact ⟨u, u', hrun, hrun', hline'.trans hline.symm, (hoe'.trans hdriven').trans (hoe.trans hdriven).symm,
    hphase'.trans hphase.symm, hidx'.trans hidx.symm, hframe'.trans hframe.symm⟩

/-- Settles O49: both runs end in what the ticks of the list lead to. -/
theorem otherTrafficLeavesTheEncoder : Obligations.OtherTrafficLeavesTheEncoder := by
  intro s es hl hes
  obtain ⟨t, hrun, ht⟩ := exists_runsTo_of_sparesEncoder (s := { s with inputs := es }) hl hes
  obtain ⟨u, hrun', hu⟩ := exists_runsTo_of_sparesEncoder
    (s := { s with inputs := List.replicate (tickCount es) .tick }) hl
    (fun e he => by rw [List.eq_of_mem_replicate he]; rfl)
  have hdue : ({ s with inputs := List.replicate (tickCount es) .tick } : State).due =
      ({ s with inputs := es } : State).due := by
    simp only [State.due, tickCount_replicate]
  have heq : t.blk.encoder = u.blk.encoder := by rw [ht, hu, hdue]
  rw [List.length_replicate] at hrun'
  obtain ⟨hnow, hsame⟩ := fields_of_encoder_eq heq
  exact ⟨t, u, hrun, hrun', hsame, hnow⟩

end Sys2Proof.Machine
end

section
/-! The host's view of time: the host timer's timeline (40_timer.md R76, R77) and the pseudo-instructions TICK, SENDW
and DELAY (30_encoding.md R70). -/

namespace Sys2Proof.Machine

/-! ### The timeline of a timer -/

section
variable {c : Config} {a : Word} (hl : c.legal = true) (ha : a.toNat < 2 ^ c.clockBits)
include hl ha

theorem elapsed_armed_after (d : Duration) (n : Nat) :
    (armed a d).elapsed c (clockWrap c (a.toNat + n)) = n % 2 ^ c.clockBits := by
  induction n with
  | zero => rw [Nat.add_zero, clockWrap_of_fits ha, elapsed_armed, Nat.zero_mod]
  | succ n ih => rw [← Nat.add_assoc, ← clockWrap_succ hl, elapsed_tick hl, ih, Nat.mod_add_mod]

theorem finished_armed_after (d : Duration) (n : Nat) :
    (armed a d).finished c (clockWrap c (a.toNat + n)) = decide (d.toNat ≤ n % 2 ^ c.clockBits) := by
  rw [Timer.finished, elapsed_armed_after hl ha, armed_alive, armed_dur, Bool.true_and]

end

/-- A step on a listed event, rst released and not asserted by it, moves a tick from those to come to a timer's elapsed
time, or neither changes. -/
theorem step_elapsed {s t : State} (h : step s = .next t) (hin : s.inputs ≠ []) (hreleased : s.rst = false)
    (hrst : s.nextEvent ≠ .rst true) (timer : Timer) :
    t.rst = false ∧ (timer.elapsed s.cfg t.blk.now + tickCount t.inputs) % 2 ^ s.cfg.clockBits =
      (timer.elapsed s.cfg s.blk.now + tickCount s.inputs) % 2 ^ s.cfg.clockBits := by
  have hlist := inputs_eq_cons hin
  obtain ⟨hl, -, htail, hcases⟩ := step_cases h
  obtain ⟨honTick, -, honRelease, honRequest⟩ := onlyTicksMoveTheClock s t h
  rw [← htail] at hlist
  obtain ⟨level, he, hr, -⟩ | ⟨he, hr, hblk⟩ | ⟨q, he, hr, -⟩ := hcases <;> rw [he] at hlist <;> rw [hlist]
  · cases level with
    | true => exact absurd he hrst
    | false => exact ⟨hr, by rw [honRelease he]; rfl⟩
  · obtain ⟨hnow, -⟩ := tick_frame s.cfg s.blk
    rw [hreleased, if_neg Bool.false_ne_true] at hblk
    refine ⟨hr.trans hreleased, ?_⟩
    rw [hblk, hnow, elapsed_tick hl, Nat.mod_add_mod, tickCount, Nat.add_assoc, Nat.add_comm 1]
  · exact ⟨hr.trans hreleased, by rw [honRequest q he]; rfl⟩

/-- An armed host timer that runs on, `n` events still to come of which none resets it or re-arms it: its elapsed time
and the ticks to come make `total`, modulo the clock. -/
structure State.TimerRuns (c : Config) (timer : Timer) (total n : Nat) (s : State) : Prop where
  cfg : s.cfg = c
  released : s.rst = false
  spares : ∀ e ∈ s.inputs, e.sparesReset = true
  length : s.inputs.length = n
  noTset : avoids Instr.isTset n s = true
  th : s.blk.th = timer
  elapsed : (timer.elapsed c s.blk.now + tickCount s.inputs) % 2 ^ c.clockBits = total % 2 ^ c.clockBits

theorem State.TimerRuns.step {c : Config} {timer : Timer} {total n : Nat} {s t : State}
    (hs : s.TimerRuns c timer total (n + 1)) (h : step s = .next t) : t.TimerRuns c timer total n := by
  obtain ⟨rfl, hreleased, hspares, hlength, hno, hth, helapsed⟩ := hs
  have hnext := nextEvent_ne_rst hspares
  obtain ⟨hrst, hkeep⟩ := step_elapsed h (List.ne_nil_of_length_eq_add_one hlength) hreleased hnext timer
  obtain ⟨-, hcfg, htail, -⟩ := step_cases h
  obtain ⟨hacc, hrest⟩ := (avoids_succ h).1 hno
  refine ⟨hcfg, hrst, fun e he => hspares e (List.mem_of_mem_tail (htail ▸ he)),
    by rw [htail, List.length_tail, hlength, Nat.add_sub_cancel], hrest, ?_, hkeep.trans helapsed⟩
  obtain hsame | ⟨he, -⟩ | ⟨q, d, he, hd, -, -, hok, -⟩ := step_th h
  · exact hsame.trans hth
  · exact absurd he hnext
  · exact nomatch hacc.symm.trans ((accepts_iff _ s).2 ⟨q, _, t, he, hd, hreleased, rfl, h, hok⟩)

/-- A timer that runs through a list of events has, at its end, all of the total elapsed. -/
theorem State.TimerRuns.exists_runsTo {c : Config} {timer : Timer} {total n : Nat} {s : State} (hl : c.legal = true)
    (hs : s.TimerRuns c timer total n) : ∃ u, RunsTo n s u ∧ u.cfg = c ∧ u.blk.th = timer ∧
      timer.elapsed c u.blk.now = total % 2 ^ c.clockBits := by
  obtain ⟨u, hrun, hu⟩ := exists_runsTo_of_step (P := fun n v => v.TimerRuns c timer total n)
    (fun _ _ _ h hv => hv.step h) (hs.cfg ▸ hl) hs
  have helapsed := hu.elapsed
  rw [List.length_eq_zero_iff.1 hu.length, tickCount, Nat.add_zero, Nat.mod_eq_of_lt (elapsed_lt _ _ _)] at helapsed
  exact ⟨u, hrun, hu.cfg, hu.th, helapsed⟩

/-! ### What the host does -/

/-- A step whose next event is a tick, rst released or asserted. -/
theorem step_on_tick {s : State} (hl : s.cfg.legal = true) (he : s.nextEvent = .tick) :
    step s = .next { s with
      inputs := s.inputs.tail
      blk := if s.rst then s.blk else s.blk.tick s.cfg } := by
  rw [step, if_pos hl, he]
  cases hr : s.rst <;> simp [runEvent, State.tick, State.takeEvent, hr]

theorem hostEvent_tick {s : State} (hl : s.cfg.legal = true) (k : State → HostRun) :
    hostEvent .tick s k = k { s with blk := if s.rst then s.blk else s.blk.tick s.cfg } := by
  have hstep := step_on_tick (s := { s with inputs := .tick :: s.inputs }) hl rfl
  rw [hostEvent, hstep]
  rfl

theorem hostEvent_tick_of_ready {s : State} (hready : s.Ready) (k : State → HostRun) :
    hostEvent .tick s k = k { s with blk := s.blk.tick s.cfg } := by
  rw [hostEvent_tick hready.legal, hready.released, if_neg Bool.false_ne_true]

/-- A request that the host issues is executed at once. -/
theorem hostEvent_request {s t : State} {q : Word} {i : Instr} (hready : s.Ready) (hd : decode q = .ok i)
    (hex : exec i s = .next t) (k : State → HostRun) : hostEvent (.request q) s k = k t := by
  have hstep := step_request (s := { s with inputs := .request q :: s.inputs }) hready.legal rfl
  rw [serve_of_decode hready.released hd] at hstep
  rw [hostEvent, hstep.trans hex]

/-- The polling loop, for a query that writes only the response: it ends with the first poll whose answer says so, one
tick having passed between each two polls. -/
theorem pollLoop_ends {q : Word} {i : Instr} {answer : Config → Block → Word} {ends : Word → Bool}
    (hd : decode q = .ok i)
    (hanswer : ∀ s, exec i s = .next { s with rspStatus := .ok, rspData := answer s.cfg s.blk }) {n fuel : Nat}
    {s : State} (hready : s.Ready) (hfuel : n < fuel)
    (hbefore : ∀ m, m < n → ends (answer s.cfg (ticks s.cfg m s.blk)) = false)
    (hend : ends (answer s.cfg (ticks s.cfg n s.blk)) = true) :
    pollLoop q ends fuel s = .ended { s with
      blk := ticks s.cfg n s.blk
      rspStatus := .ok
      rspData := answer s.cfg (ticks s.cfg n s.blk) } := by
  obtain ⟨fuel, rfl⟩ := Nat.exists_eq_add_of_lt hfuel
  induction n generalizing s with
  | zero =>
    rw [pollLoop, hostEvent_request hready hd (hanswer s)]
    exact if_pos hend
  | succ n ih =>
    have hgoesOn : ends (answer s.cfg s.blk) = false := hbefore 0 (Nat.succ_pos n)
    rw [pollLoop, hostEvent_request hready hd (hanswer s), if_neg (ne_true_of_eq_false hgoesOn),
      hostEvent_tick_of_ready (by exact ⟨hready.legal, hready.released⟩), Nat.add_right_comm n 1 fuel]
    exact ih (s := { s with rspStatus := .ok, rspData := answer s.cfg s.blk, blk := s.blk.tick s.cfg })
      ⟨hready.legal, hready.released⟩ (fun m hm => hbefore (m + 1) (Nat.succ_lt_succ hm)) hend (by omega)

/-! ### TICK -/

/-- The state when `n` ticks have passed and nothing else: they do not count while rst is asserted. -/
def State.afterTicks (n : Nat) (s : State) : State :=
  { s with blk := if s.rst then s.blk else ticks s.cfg n s.blk }

theorem State.afterTicks_zero (s : State) : s.afterTicks 0 = s := by
  simp [State.afterTicks, ticks]

theorem State.afterTicks_succ (n : Nat) (s : State) : s.afterTicks (n + 1) =
    State.afterTicks n { s with blk := if s.rst then s.blk else s.blk.tick s.cfg } := by
  unfold State.afterTicks
  cases s.rst <;> rfl

theorem tickN_eq {s : State} (hl : s.cfg.legal = true) (n : Nat) : tickN n s = .ended (s.afterTicks n) := by
  induction n generalizing s with
  | zero =>
    rw [State.afterTicks_zero, tickN]
  | succ n ih => rw [tickN, hostEvent_tick hl, ih (by exact hl), State.afterTicks_succ]

theorem runsTo_ticks {s : State} (hl : s.cfg.legal = true) {n : Nat} (hin : s.inputs = List.replicate n .tick) :
    RunsTo n s { s.afterTicks n with inputs := [] } := by
  induction n generalizing s with
  | zero =>
    rw [State.afterTicks_zero]
    cases s
    cases hin
    rfl
  | succ n ih =>
    rw [State.afterTicks_succ]
    have hnext : s.nextEvent = .tick := by rw [State.nextEvent, hin, List.replicate_succ]
    exact ⟨_, step_on_tick hl hnext, ih hl (by rw [hin, List.replicate_succ, List.tail_cons])⟩

/-! ### SENDW and DELAY -/

/-- BUSY is bit 1 of STATUS (10_state.md R35). -/
theorem viewStatus_busy (b : Block) : (viewStatus b).getLsbD 1 = b.busy := by
  have hbit : (viewStatus b).toNat / 2 ^ 1 % 2 = b.busy.toNat := by
    have := b.init.toNat_lt
    have := b.busy.toNat_lt
    rw [viewStatus_toNat]
    omega
  rw [getLsbD_eq_decide, hbit]
  cases b.busy <;> rfl

/-- The query result of TFIN in its one bit (40_timer.md R79). -/
theorem flag_getLsbD_zero (b : Bool) : (if b = true then 1 else 0 : Word).getLsbD 0 = b := by
  cases b <;> rfl

theorem sendw_refused {cmd : Byte} {l8 l9 : Bool} {stripe : BitVec 6} {s : State} {e : Status} (fuel : Nat)
    (hready : s.Ready) (he : e ≠ .ok) (hex : exec (readSend cmd l8 l9 stripe) s = .next (s.refusedWith e)) :
    sendw fuel cmd l8 l9 stripe s = .ended (s.refusedWith e) := by
  rw [sendw, hostEvent_request hready (decode_formatS cmd l8 l9 stripe) hex]
  exact if_neg he

/-- SENDW polls through the ticks of its frame, F of them, and ends with the first poll after it. -/
theorem sendw_accepted {cmd : Byte} {l8 l9 : Bool} {stripe : BitVec 6} {s : State} {w : FrameWord} {fuel : Nat}
    (hready : s.Ready) (hnow : s.blk.now.toNat < 2 ^ s.cfg.clockBits) (hfuel : frameTicks s.cfg w < fuel)
    (hex : exec (readSend cmd l8 l9 stripe) s =
      .next { s with blk := s.blk.startFrame s.cfg w, rspStatus := .ok, rspData := 0 }) :
    ∃ d, sendw fuel cmd l8 l9 stripe s = .ended { s with
      blk := ticks s.cfg (frameTicks s.cfg w) (s.blk.startFrame s.cfg w)
      rspStatus := .ok
      rspData := d } := by
  rw [sendw, hostEvent_request hready (decode_formatS cmd l8 l9 stripe) hex, if_pos rfl]
  refine ⟨_, pollLoop_ends (decode_formatR .status) (answer := fun _ b => viewStatus b) (exec_rdstate .status)
    (s := { s with blk := s.blk.startFrame s.cfg w, rspStatus := .ok, rspData := 0 }) ⟨hready.legal, hready.released⟩
    hfuel (fun m hm => ?_) ?_⟩
  · obtain ⟨g, start, hstage, e⟩ := exists_stage_at hready.legal w m
    obtain ⟨hbusy, -⟩ := hstage (symbolStart_frameLen s.cfg w ▸ hm)
    have hinFlight : (ticks s.cfg m (s.blk.startFrame s.cfg w)).busy = true :=
      (congrArg Block.busy (e s.blk hnow)).trans hbusy
    simp only [viewStatus_busy, hinFlight, Bool.not_true]
  · have hover : (ticks s.cfg (frameTicks s.cfg w) (s.blk.startFrame s.cfg w)).busy = false :=
      congrArg Block.busy (ticks_over hready.legal hnow (symbolStart_frameLen s.cfg w).le)
    simp only [viewStatus_busy, hover, Bool.not_false]

/-- DELAY polls until its timer is finished, which is when its duration has passed. -/
theorem delay_accepted {d : BitVec 24} {s : State} {fuel : Nat} (hready : s.Ready)
    (hnow : s.blk.now.toNat < 2 ^ s.cfg.clockBits) (hd : 0 ≤ d.toInt) (hfuel : d.toInt.toNat < fuel) :
    ∃ r, delay fuel d s = .ended { s with
      blk := ticks s.cfg d.toInt.toNat (s.blk.armTh (durationOf d))
      rspStatus := .ok
      rspData := r } := by
  have hdur := durationOf_toNat hd
  have hclock := le_clock hready.legal
  have hfin (m : Nat) (hm : m ≤ d.toInt.toNat) : (ticks s.cfg m (s.blk.armTh (durationOf d))).th.finished s.cfg
      (ticks s.cfg m (s.blk.armTh (durationOf d))).now = decide (d.toInt.toNat ≤ m) := by
    have hlt := (durationOf d).isLt
    rw [ticks_th, ticks_now hready.legal m (s.blk.armTh _) hnow, Block.armTh_th, Block.armTh_now,
      finished_armed_after hready.legal hnow, hdur, Nat.mod_eq_of_lt (by omega)]
  rw [delay, hostEvent_request hready (decode_formatD d) (exec_tset_of_nonneg hd s), if_pos rfl]
  refine ⟨_, pollLoop_ends (i := .tfin) rfl (answer := fun c b => if b.th.finished c b.now = true then 1 else 0)
    exec_tfin (s := { s with blk := s.blk.armTh (durationOf d), rspStatus := .ok, rspData := 0 })
    ⟨hready.legal, hready.released⟩ hfuel (fun m hm => ?_) ?_⟩
  · rw [flag_getLsbD_zero]
    exact (hfin m hm.le).trans (decide_eq_false (Nat.not_le.2 hm))
  · rw [flag_getLsbD_zero]
    exact (hfin _ le_rfl).trans (decide_eq_true le_rfl)

/-! ### The obligations -/

/-- Settles O50: SEND's answer decides; accepted, the loop ends F ticks later, where the frame's course says. -/
theorem sendwEndsWithTheFrame : Obligations.SendwEndsWithTheFrame := by
  intro s cmd l8 l9 stripe fuel hready
  obtain ⟨hexec, -⟩ := sendStartsAFrame
  obtain ⟨haccept, huninit, hbusy, hinvalid, hrange⟩ :=
    hexec _ cmd l8 l9 stripe s (sendOperands_readSend cmd l8 l9 stripe)
  refine ⟨fun hinv h1 h2 h3 h4 hfuel => ?_, fun h1 => sendw_refused fuel hready nofun (huninit h1),
    fun h1 h2 => sendw_refused fuel hready nofun (hbusy h1 h2),
    fun h1 h2 h3 => sendw_refused fuel hready nofun (hinvalid h1 h2 h3),
    fun h1 h2 h3 h4 => sendw_refused fuel hready nofun (hrange h1 h2 h3 h4)⟩
  have hnow := hinv.nowFits
  obtain ⟨d, hsendw⟩ := sendw_accepted hready hnow hfuel (haccept h1 h2 h3 h4)
  have hover := ticks_over (w := frameWord s.cfg cmd l8 l9 stripe) hready.legal hnow (symbolStart_frameLen _ _).le
  refine ⟨_, hsendw, congrArg Block.phase hover, congrArg Block.line hover, congrArg Block.now hover, ?_, rfl, rfl, rfl⟩
  rw [ticks_th, Block.startFrame_th]

/-- Settles O51: TSET's answer decides; accepted, the loop ends when the timer's duration has passed. -/
theorem delayEndsAfterItsDuration : Obligations.DelayEndsAfterItsDuration := by
  intro s d fuel hready
  refine ⟨fun hnow hd hfuel => ?_, fun hd => ?_⟩
  · obtain ⟨r, hdelay⟩ := delay_accepted hready hnow hd (show d.toInt.toNat < fuel by omega)
    refine ⟨_, hdelay, ticks_now hready.legal _ _ hnow, ?_, rfl, rfl, rfl⟩
    rw [ticks_th, Block.armTh_th, durationOf_eq_ofNat hd, armed]
  · rw [delay, hostEvent_request hready (decode_formatD d) (exec_tset_of_neg hd s)]
    exact if_neg nofun

/-- Settles O52: both TICK and the run over its tick events end in the state when those ticks have passed. -/
theorem tickLetsTicksPass : Obligations.TickLetsTicksPass := by
  intro s n hl
  refine ⟨_, tickN_eq hl n, runsTo_ticks (s := { s with inputs := List.replicate n .tick }) hl rfl, rfl, rfl, rfl, rfl,
    fun hr hnow => ?_⟩
  simp only [State.afterTicks, hr, if_neg Bool.false_ne_true, ticks_now hl n _ hnow]

/-- Settles O35: the timeline of any armed timer, and the run in which the host timer's elapsed time counts the ticks.
-/
theorem hostTimerFinishesAtItsDuration : Obligations.HostTimerFinishesAtItsDuration := by
  refine ⟨fun c a d n hl ha => ⟨rfl, elapsed_armed_after hl ha d n, finished_armed_after hl ha d n⟩,
    fun s t d es hl hr hd h hspares hno => ?_⟩
  rw [exec_tset_of_nonneg hd] at h
  cases h
  have hruns : State.TimerRuns s.cfg (armed s.blk.now (durationOf d)) (tickCount es) es.length
      { s with blk := s.blk.armTh (durationOf d), rspStatus := .ok, rspData := 0, inputs := es } :=
    ⟨rfl, hr, hspares, rfl, hno, rfl, by rw [Block.armTh_now, elapsed_armed, Nat.zero_add]⟩
  obtain ⟨u, hrun, hcfg, hth, helapsed⟩ := hruns.exists_runsTo hl
  refine ⟨u, hrun, hth, by rw [hth, armed_alive], ?_⟩
  rw [Block.thFinished, hth, hcfg, Timer.finished, helapsed, armed_alive, armed_dur, Bool.true_and,
    durationOf_toNat hd, decide_eq_decide]
  omega

end Sys2Proof.Machine
end

section
/-! One step of the machine: that every event is answered, what the answer leaves alone, the host's record of errors
(log entry 5), and the only moves between phases and writers of the host timer. -/

namespace Sys2Proof.Machine

/-! ### The phase -/

/-- The only request that moves the phase is an accepted SEND (41_encoder.md R83). -/
theorem exec_phase {i : Instr} {s t : State} (h : exec i s = .next t) : t.blk.phase = s.blk.phase ∨
    ((sendOperands i).isSome ∧ s.blk.busy = false ∧ t.rspStatus = .ok ∧ t.blk.phase = .startActive) := by
  obtain ⟨-, -, -, hblk | ⟨-, -, -, hblk⟩ | ⟨d, -, -, -, hblk⟩ | ⟨_, _, _, _, hops, -, hidle, -, -, hok, hblk⟩⟩ :=
    exec_cases h
  · exact .inl (by rw [hblk])
  · exact .inl (by rw [hblk, Block.initialise_phase])
  · exact .inl (by rw [hblk, Block.armTh_phase])
  · exact .inr ⟨by rw [hops, Option.isSome_some], hidle, hok, by rw [hblk, Block.startFrame_phase]⟩

/-- While a frame is in flight no request touches the encoder: BEGIN and SEND are refused. -/
theorem exec_busy_encoder {i : Instr} {s t : State} (h : exec i s = .next t) (hbusy : s.blk.busy = true) :
    t.blk.encoder = s.blk.encoder := by
  obtain ⟨-, -, -, hblk | ⟨-, hidle, -⟩ | ⟨d, -, -, -, hblk⟩ | ⟨_, _, _, _, -, -, hidle, -⟩⟩ := exec_cases h
  · rw [hblk]
  · exact nomatch hidle.symm.trans hbusy
  · rw [hblk]
    rfl
  · exact nomatch hidle.symm.trans hbusy

/-- The five moves between phases that a tick makes (41_encoder.md section 3). -/
def tickMoves : List (Phase × Phase) :=
  [(.startActive, .startGap), (.startGap, .bitActive), (.bitActive, .bitGap), (.bitGap, .bitActive), (.bitGap, .done)]

/-- Every stage transition that moves the phase makes one of the five moves. -/
theorem nextStage_phase (c : Config) (b : Block) : (b.nextStage c).phase = b.phase ∨
    (b.phase, (b.nextStage c).phase) ∈ tickMoves := by
  obtain ⟨hp, e⟩ | ⟨hp, e⟩ | ⟨hp, e⟩ | ⟨hp, -, e⟩ | ⟨hp, -, e⟩ | ⟨-, e⟩ := nextStage_cases c b <;> rw [e]
  · exact .inr (by simp [tickMoves, hp])
  · exact .inr (by simp [tickMoves, hp])
  · exact .inr (by simp [tickMoves, hp])
  · exact .inr (by simp [tickMoves, hp])
  · exact .inr (by simp [tickMoves, hp])
  · exact .inl rfl

theorem tick_phase (c : Config) (b : Block) : (b.tick c).phase = b.phase ∨
    (b.phase, (b.tick c).phase) ∈ tickMoves := by
  obtain ⟨-, e⟩ | ⟨-, -, e⟩ | ⟨-, -, e⟩ := tick_cases c b <;> rw [e]
  · exact .inl rfl
  · exact .inl rfl
  · exact nextStage_phase c (b.countTick c)

theorem phase_of_idle {b : Block} (hidle : b.busy = false) : b.phase = .idle ∨ b.phase = .done := by
  rw [Block.busy] at hidle
  cases hp : b.phase <;> rw [hp] at hidle
  case idle => exact .inl rfl
  case done => exact .inr rfl
  all_goals cases hidle

/-! ### The host's record -/

/-- Every request is answered in one way whatever the record holds: with a refusal, which grows it by its status, or
with OK, which leaves it (log entry 5). -/
theorem exec_of_any_record (i : Instr) (s : State) :
    (∃ e, e ≠ .ok ∧ ∀ h, exec i { s with hostErrors := h } =
      .next (State.refusedWith e { s with hostErrors := h })) ∨
    (∃ b d, ∀ h, exec i { s with hostErrors := h } =
      .next { s with hostErrors := h, blk := b, rspStatus := .ok, rspData := d }) := by
  cases hops : sendOperands i with
  | some ops =>
    obtain ⟨cmd, l8, l9, stripe⟩ := ops
    simp only [exec_send_eq hops]
    split
    · exact .inl ⟨.notInitialised, nofun, fun _ => rfl⟩
    split
    · exact .inl ⟨.busy, nofun, fun _ => rfl⟩
    split
    · exact .inl ⟨.invalidCommand, nofun, fun _ => rfl⟩
    split
    · exact .inl ⟨.stripeRange, nofun, fun _ => rfl⟩
    · exact .inr ⟨s.blk.startFrame s.cfg (frameWord s.cfg cmd l8 l9 stripe), 0, fun _ => rfl⟩
  | none =>
    cases i with
    | nop => exact .inr ⟨s.blk, 0, fun _ => exec_nop _⟩
    | beginLine =>
      cases hb : s.blk.busy with
      | true => exact .inl ⟨.busy, nofun, fun _ => exec_beginLine_of_busy hb⟩
      | false => exact .inr ⟨s.blk.initialise s.cfg, 0, fun _ => exec_beginLine_of_idle hb⟩
    | tset d =>
      by_cases hd : d.toInt < 0
      · exact .inl ⟨.invalidArgument, nofun, fun _ => exec_tset_of_neg hd _⟩
      · exact .inr ⟨s.blk.armTh (durationOf d), 0, fun _ => exec_tset_of_nonneg (Int.not_lt.1 hd) _⟩
    | tfin => exact .inr ⟨s.blk, queryResult s .tfin, fun _ => exec_tfin _⟩
    | talive => exact .inr ⟨s.blk, queryResult s .talive, fun _ => exec_talive _⟩
    | rdstate v => exact .inr ⟨s.blk, queryResult s (.rdstate v), fun _ => exec_rdstate v _⟩
    | _ => cases hops

/-- What a request does to the record, and that it does not read it. -/
theorem exec_record {i : Instr} {s t : State} (h : exec i s = .next t) :
    t.hostErrors = (if t.rspStatus = .ok then s.hostErrors else t.rspStatus :: s.hostErrors) ∧
    ∀ r, ∃ r', exec i { s with hostErrors := r } = .next { t with hostErrors := r' } := by
  obtain ⟨e, he, hall⟩ | ⟨b, d, hall⟩ := exec_of_any_record i s
  · cases (hall s.hostErrors).symm.trans h
    exact ⟨(if_neg he).symm, fun r => ⟨_, hall r⟩⟩
  · cases (hall s.hostErrors).symm.trans h
    exact ⟨(if_pos rfl).symm, fun r => ⟨_, hall r⟩⟩

theorem step_on_request {s : State} {q : Word} (hl : s.cfg.legal = true) (he : s.nextEvent = .request q) :
    step s = serve q s.takeEvent := by
  rw [step, if_pos hl, he, runEvent]

/-- While rst is asserted no word is processed (70_reset_and_hazards.md R136). -/
theorem serve_of_rst {q : Word} {s : State} (hr : s.rst = true) : serve q s = .next s := by
  rw [serve, if_pos hr]

/-- What a word does to the record, and that serving it does not read it. -/
theorem serve_record {q : Word} {s t : State} (h : serve q s = .next t) :
    (s.rst = false → t.hostErrors = (if t.rspStatus = .ok then s.hostErrors else t.rspStatus :: s.hostErrors)) ∧
    (s.rst = true → t.hostErrors = s.hostErrors) ∧
    ∀ r, ∃ r', serve q { s with hostErrors := r } = .next { t with hostErrors := r' } := by
  obtain hr | hr := Bool.eq_false_or_eq_true s.rst
  · cases (serve_of_rst hr).symm.trans h
    exact ⟨fun hr' => (nomatch hr'.symm.trans hr), fun _ => rfl,
      fun r => ⟨r, serve_of_rst (s := { s with hostErrors := r }) hr⟩⟩
  · have hnot : s.rst = true → t.hostErrors = s.hostErrors := fun hr' => nomatch hr'.symm.trans hr
    cases hd : decode q with
    | error why =>
      have hq := (decode_error_iff q).1 ⟨why, hd⟩
      cases (serve_illegal hr hq).symm.trans h
      exact ⟨fun _ => rfl, hnot, fun r => ⟨_, serve_illegal (s := { s with hostErrors := r }) hr hq⟩⟩
    | ok i =>
      rw [serve_of_decode hr hd] at h
      obtain ⟨hgrows, hall⟩ := exec_record h
      refine ⟨fun _ => hgrows, hnot, fun r => ?_⟩
      obtain ⟨r', hexec⟩ := hall r
      exact ⟨r', (serve_of_decode (s := { s with hostErrors := r }) hr hd).trans hexec⟩

/-- What a step does to the record: only a request that is processed grows it; and no step reads it. -/
theorem step_record {s t : State} (h : step s = .next t) :
    (∀ q, s.nextEvent = .request q → s.rst = false →
      t.hostErrors = (if t.rspStatus = .ok then s.hostErrors else t.rspStatus :: s.hostErrors)) ∧
    ((∀ q, s.nextEvent ≠ .request q) ∨ s.rst = true → t.hostErrors = s.hostErrors) ∧
    ∀ r, ∃ r', step { s with hostErrors := r } = .next { t with hostErrors := r' } := by
  obtain ⟨hl, -⟩ := step_cases h
  cases he : s.nextEvent with
  | tick =>
    cases (step_on_tick hl he).symm.trans h
    exact ⟨nofun, fun _ => rfl, fun r => ⟨r, step_on_tick (s := { s with hostErrors := r }) hl he⟩⟩
  | rst level =>
    cases (step_rst hl he).symm.trans h
    exact ⟨nofun, fun _ => rfl, fun r => ⟨r, step_rst (s := { s with hostErrors := r }) hl he⟩⟩
  | request q =>
    obtain ⟨hgrows, hlost, hall⟩ := serve_record ((step_on_request hl he).symm.trans h)
    refine ⟨fun _ _ => hgrows, fun hor => hlost (hor.resolve_left fun hne => hne q rfl), fun r => ?_⟩
    obtain ⟨r', hserve⟩ := hall r
    exact ⟨r', (step_on_request (s := { s with hostErrors := r }) hl he).trans hserve⟩

/-! ### The obligations -/

/-- Settles O9: the event is taken, and the word decoded. -/
theorem stepRunsTheDecodedRequest : Obligations.StepRunsTheDecodedRequest := by
  intro s q i rest hl hr hin hd
  rw [step_request hl hin]
  exact serve_of_decode hr hd

/-- Settles O10: every event has a next state, and every step takes its event and leaves the configuration. -/
theorem everyEventIsAnswered : Obligations.EveryEventIsAnswered := by
  intro s hl
  obtain ⟨t, ht⟩ := step_total hl
  obtain ⟨-, hcfg, htail, -⟩ := step_cases ht
  exact ⟨t, ht, htail, hcfg⟩

/-- Settles O11: the step's own check of the configuration. -/
theorem illegalConfigurationStops : Obligations.IllegalConfigurationStops := by
  intro s hl
  rw [step, if_neg (ne_true_of_eq_false hl)]

/-- Settles O15: what the record holds after a step and after a request, and that neither reads it. -/
theorem hostRecordsEveryError : Obligations.HostRecordsEveryError :=
  ⟨fun _ _ => step_record, fun _ _ _ => exec_record⟩

/-- Settles O21: each query writes only the response, with a value that does not depend on the ports. -/
theorem queriesAreIdempotent : Obligations.QueriesAreIdempotent := by
  intro i s t hi h
  obtain rfl | rfl | rfl | ⟨v, rfl⟩ := hi
  · cases (exec_nop s).symm.trans h
    exact ⟨rfl, rfl, exec_nop _⟩
  · cases (exec_tfin s).symm.trans h
    exact ⟨rfl, rfl, exec_tfin _⟩
  · cases (exec_talive s).symm.trans h
    exact ⟨rfl, rfl, exec_talive _⟩
  · cases (exec_rdstate v s).symm.trans h
    exact ⟨rfl, rfl, exec_rdstate v _⟩

/-- Settles O24: each constructor carries its command's byte, which is valid, so SEND's accepting clause holds of it. -/
theorem eachCommandStartsItsFrame : Obligations.EachCommandStartsItsFrame := by
  intro s l8 l9 stripe hinit hbusy hfits p hp
  have ⟨hops, hvalid⟩ : sendOperands p.1 = some (p.2, l8, l9, stripe) ∧ validCommand p.2 = true := by
    fin_cases hp <;> exact ⟨rfl, rfl⟩
  obtain ⟨hexec, -⟩ := sendStartsAFrame
  obtain ⟨haccept, -⟩ := hexec p.1 p.2 l8 l9 stripe s hops
  exact haccept hinit hbusy hvalid hfits

/-- Settles O29: a frame in flight excludes an accepted BEGIN and SEND, and nothing else a request does touches the
encoder. -/
theorem noRequestDisturbsAFrame : Obligations.NoRequestDisturbsAFrame := by
  intro q s hr hbusy hinit
  cases hd : decode q with
  | error why =>
    exact ⟨_, serve_illegal hr ((decode_error_iff q).1 ⟨why, hd⟩), ⟨rfl, rfl, rfl, rfl, rfl, rfl, rfl⟩, rfl, rfl, nofun⟩
  | ok i =>
    obtain ⟨t, ht⟩ := exec_total i s
    obtain ⟨hcfg, -⟩ := exec_cases ht
    refine ⟨t, (serve_of_decode hr hd).trans ht, ?_, exec_now ht, hcfg, fun j hj hi => ?_⟩
    · obtain ⟨-, hsame⟩ := fields_of_encoder_eq (exec_busy_encoder ht hbusy)
      exact hsame
    · cases hj
      obtain rfl | hsend := hi
      · cases (exec_beginLine_of_busy hbusy).symm.trans ht
        rfl
      · obtain ⟨⟨cmd, l8, l9, stripe⟩, hops⟩ := Option.isSome_iff_exists.1 hsend
        obtain ⟨hexec, -⟩ := sendStartsAFrame
        obtain ⟨-, -, hrefused, -⟩ := hexec i cmd l8 l9 stripe s hops
        cases (hrefused hinit hbusy).symm.trans ht
        rfl

/-- Settles O33: of what a step can do to the block, only the reset, the tick's transitions and SEND move the phase. -/
theorem phaseMoves : Obligations.PhaseMoves := by
  intro s t h hne
  cases he : s.nextEvent with
  | rst level =>
    have hblk := step_rst_blk h he
    cases level with
    | true => exact .inl ⟨rfl, by rw [hblk, if_pos rfl, Block.reset_phase]⟩
    | false => exact absurd (by rw [hblk, if_neg Bool.false_ne_true]) hne
  | tick =>
    have hblk := step_tick_blk h he
    rw [hblk] at hne ⊢
    split at hne
    · exact absurd rfl hne
    · rename_i hr
      rw [if_neg hr]
      exact .inr (.inr ⟨rfl, (tick_phase s.cfg s.blk).resolve_left hne⟩)
  | request q =>
    obtain hblk | ⟨i, hd, hex⟩ := step_request_blk h he
    · exact absurd (by rw [hblk]) hne
    · obtain hkeep | ⟨hsend, hidle, hok, hphase⟩ := exec_phase hex
      · exact absurd hkeep hne
      · exact .inr (.inl ⟨q, i, rfl, hd, hsend, hok, phase_of_idle hidle, hphase⟩)

/-- Settles O34: finished is defined as alive and elapsed, for either timer. -/
theorem neverFinishedAndNotAlive : Obligations.NeverFinishedAndNotAlive := by
  have halive (c : Config) (now : Word) (timer : Timer) (h : timer.finished c now = true) : timer.alive = true := by
    rw [Timer.finished, Bool.and_eq_true] at h
    exact h.1
  exact fun c b => ⟨halive c b.now b.th, halive c b.now b.te⟩

/-- Settles O37: of what a step can do to the host timer, all but leaving it alone. -/
theorem onlyTsetWritesTheHostTimer : Obligations.OnlyTsetWritesTheHostTimer := by
  intro s t h hne
  obtain hkeep | ⟨he, hinert⟩ | ⟨q, d, he, hd, -, hnonneg, -, harm⟩ := step_th h
  · exact absurd hkeep hne
  · exact .inl ⟨he, hinert⟩
  · refine .inr ⟨q, d, he, hd, hnonneg, ?_⟩
    rw [harm, armed, durationOf_eq_ofNat hnonneg]

/-- Settles O53: a level of rst writes rst and the block alone, and while it is asserted every event is only taken. -/
theorem portsAcrossReset : Obligations.PortsAcrossReset := by
  refine ⟨fun s hl he => step_rst hl he, fun s hl hrst he hblk => ?_, fun s hl he => step_rst hl he⟩
  cases hn : s.nextEvent with
  | tick => rw [step_on_tick hl hn, if_pos hrst]
  | request q => exact (step_on_request hl hn).trans (serve_of_rst hrst)
  | rst level =>
    cases level with
    | false => exact absurd hn he
    | true =>
      have hsame : s.takeEvent.setRst true = { s.takeEvent with rst := s.rst, blk := s.blk } := by rw [hrst, hblk]; rfl
      rw [step_rst hl hn, hsame]
      rfl

/-- Settles O54: the step on a tick, whatever rst is. -/
theorem portsAcrossTick : Obligations.PortsAcrossTick :=
  fun _ hl he => ⟨_, step_on_tick hl he⟩

end Sys2Proof.Machine
end

section
/-! The symbols of a frame (30_encoding.md R67; 41_encoder.md R95; 42_commands.md section 2): which operand bit each bit
of the frame word is. -/

namespace Sys2Proof.Machine

theorem flagWord_getLsbD (b : Bool) (j : Nat) : (flagWord b).getLsbD j = (decide (j = 0) && b) := by
  cases b with
  | false => simp [flagWord]
  | true =>
    rw [flagWord, BitVec.getLsbD_setWidth]
    cases j <;> simp

/-- A stripe that fits has no bit at or above STRIPE_WIDTH. -/
theorem stripe_getLsbD_of_le {c : Config} {stripe : BitVec 6} (hfits : stripe.toNat < 2 ^ c.stripeWidth) {j : Nat}
    (hj : c.stripeWidth ≤ j) : stripe.getLsbD j = false :=
  Nat.testBit_lt_two_pow (Nat.lt_of_lt_of_le hfits (Nat.pow_le_pow_right (by decide) hj))

section
variable {c : Config} {stripe : BitVec 6} (hl : c.legal = true) (hfits : stripe.toNat < 2 ^ c.stripeWidth)
  (cmd : Byte) (l8 l9 : Bool)
include hl hfits

/-- The bits of the frame word, field by field from the stripe upwards (30_encoding.md R66). -/
theorem frameWord_getLsbD {j : Nat} (hj : j < frameLen c) : (frameWord c cmd l8 l9 stripe).getLsbD j =
    if j < c.stripeWidth then stripe.getLsbD j
    else if j = c.stripeWidth then l9
    else if j = 1 + c.stripeWidth then l8
    else cmd.getLsbD (j - (2 + c.stripeWidth)) := by
  have hlen := frameLen_le hl
  have hj16 : j < 16 := by omega
  simp only [frameWord, BitVec.getLsbD_or, BitVec.getLsbD_shiftLeft, BitVec.getLsbD_setWidth, flagWord_getLsbD, hj16,
    decide_true, Bool.true_and]
  obtain hlt | rfl | rfl | hge : j < c.stripeWidth ∨ j = c.stripeWidth ∨ j = 1 + c.stripeWidth ∨
      2 + c.stripeWidth ≤ j := by
    omega
  · grind
  · have hnone := stripe_getLsbD_of_le hfits (le_refl c.stripeWidth)
    simp [hnone]
  · have hnone := stripe_getLsbD_of_le hfits (Nat.le_add_left c.stripeWidth 1)
    simp [hnone]
  · have hnone := stripe_getLsbD_of_le hfits (show c.stripeWidth ≤ j by omega)
    grind

/-- Symbols 0 to 7 are the bits of CMD, the highest first. -/
theorem symbolOf_command {k : Nat} (hk : k ≤ 7) :
    symbolOf c (frameWord c cmd l8 l9 stripe) k = cmd.getLsbD (7 - k) := by
  have hlen : frameLen c = 10 + c.stripeWidth := rfl
  rw [symbolOf, frameWord_getLsbD hl hfits cmd l8 l9 (by omega), if_neg (by omega), if_neg (by omega),
    if_neg (by omega)]
  congr 1
  omega

/-- Symbol 8 is L8. -/
theorem symbolOf_l8 : symbolOf c (frameWord c cmd l8 l9 stripe) 8 = l8 := by
  have hlen : frameLen c = 10 + c.stripeWidth := rfl
  rw [symbolOf, frameWord_getLsbD hl hfits cmd l8 l9 (by omega), if_neg (by omega), if_neg (by omega),
    if_pos (by omega)]

/-- Symbol 9 is L9. -/
theorem symbolOf_l9 : symbolOf c (frameWord c cmd l8 l9 stripe) 9 = l9 := by
  have hlen : frameLen c = 10 + c.stripeWidth := rfl
  rw [symbolOf, frameWord_getLsbD hl hfits cmd l8 l9 (by omega), if_neg (by omega), if_pos (by omega)]

/-- The symbols from 10 on are the bits of the stripe, the highest first. -/
theorem symbolOf_stripe {k : Nat} (hk : 10 ≤ k) (hlast : k ≤ 9 + c.stripeWidth) :
    symbolOf c (frameWord c cmd l8 l9 stripe) k = stripe.getLsbD (9 + c.stripeWidth - k) := by
  rw [symbolOf, frameLen_pred, frameWord_getLsbD hl hfits cmd l8 l9 (by unfold frameLen; omega), if_pos (by omega)]

end

/-! ### The obligations -/

/-- Settles O26: the four fields, each at its symbols. -/
theorem symbolPositions : Obligations.SymbolPositions :=
  fun _ cmd l8 l9 _ hl hfits => ⟨fun _ => symbolOf_command hl hfits cmd l8 l9, symbolOf_l8 hl hfits cmd l8 l9,
    symbolOf_l9 hl hfits cmd l8 l9, fun _ => symbolOf_stripe hl hfits cmd l8 l9⟩

/-- Settles O27: the eight symbols are the command byte's bits, read from the table. -/
theorem commandSymbols : Obligations.CommandSymbols := by
  intro c l8 l9 stripe hl hfits
  have hrow (k : Command) : (List.range 8).map (symbolOf c (frameWord c (commandByte k) l8 l9 stripe)) =
      (List.range 8).map fun n => (commandByte k).getLsbD (7 - n) :=
    List.map_congr_left fun n hn =>
      symbolOf_command hl hfits (commandByte k) l8 l9 (Nat.le_of_lt_succ (List.mem_range.1 hn))
  simp only [hrow]
  rfl

/-- Settles O28: symbols 0 to 7 are bits of CMD; each later symbol is a bit of the flags or of the stripe. -/
theorem flagsAndCommandAreIndependent : Obligations.FlagsAndCommandAreIndependent := by
  intro c cmd cmd' l8 l8' l9 l9' stripe stripe' hl hfits hfits'
  refine ⟨fun k hk => ?_, fun k hk hlast => ?_⟩
  · rw [symbolOf_command hl hfits cmd l8 l9 hk, symbolOf_command hl hfits' cmd l8' l9' hk]
  · obtain rfl | rfl | hk : k = 8 ∨ k = 9 ∨ 10 ≤ k := by omega
    · rw [symbolOf_l8 hl hfits, symbolOf_l8 hl hfits]
    · rw [symbolOf_l9 hl hfits, symbolOf_l9 hl hfits]
    · have hle : k ≤ 9 + c.stripeWidth := by
        have := frameLen_pred c
        omega
      rw [symbolOf_stripe hl hfits cmd l8 l9 hk hle, symbolOf_stripe hl hfits cmd' l8 l9 hk hle]

end Sys2Proof.Machine
end
